-- ==== Sys2Proof/Word.lean ====
section
/-! DEFINITION. The plain data of RDP-9 CORE: words, addresses, bytes (spec 00_scope.md R7, R9; 10_state.md R20). -/

namespace Sys2Proof

/-- A word of core or of an 18-bit register, bit 0 least significant (R7, R9). -/
abbrev Word := BitVec 18

/-- A 15-bit core address: bank in bits 14:13, offset in bits 12:0 (R7, R60). -/
abbrev Addr := BitVec 15

/-- A byte of the paper tape or of the terminal sink (R48, R49). -/
abbrev Byte := BitVec 8

end Sys2Proof
end

