-- ==== Sys2Proof/Machine/Control.lean ====
section
/-! DEFINITION. The microcode control word by its named signals (spec 10_state.md R36 to R39): the source gives the
signals of each field and no bit positions, so no layout is claimed here (log 9). -/

namespace Sys2Proof.Machine

/-- The 2-bit mode of the step field: the three decode modes of R38, and `unnamed`, the fourth code, which is no decode mode
of R38 and whose meaning is not in the source (91_not_in_source.md N3). DESIGN CHOICE (log 9): a control word can hold the
fourth code, and the modes are not numbered. -/
inductive DecodeMode where
  | service | instruction | operate | unnamed
  deriving DecidableEq, Repr, Inhabited

/-- The eight sources of the data bus (R118). -/
inductive DataSource where
  | switches | ac | step | mq | crossbar | alu | core | constant
  deriving DecidableEq, Repr, Inhabited

/-- The eight operations of the ALU (R105). -/
inductive AluOp where
  | clear | bMinusA | aMinusB | add | xor | or | and | preset
  deriving DecidableEq, Repr, Inhabited

/-- The four link-select values (R105, R112). -/
inductive LinkSel where
  | keep | complement | fromArithmetic | fromShifter
  deriving DecidableEq, Repr, Inhabited

/-- The four shifter operations (R105, R110). -/
inductive ShiftOp where
  | rar | ral | rtr | rtl
  deriving DecidableEq, Repr, Inhabited

/-- Control-word field 1: the eight latch enables, as D28 reads them (R36, R120, R122). -/
structure LatchEnables where
  ac : Bool := false
  mb : Bool := false
  mq : Bool := false
  pc : Bool := false
  ma : Bool := false
  ir : Bool := false
  step : Bool := false
  coreWrite : Bool := false
  deriving DecidableEq, Repr, Inhabited

/-- Control-word field 2: the bus-control signals (R36, R117, R118). -/
structure BusControl where
  source : DataSource := .switches
  selectMa : Bool := false
  addressEnable : Bool := false
  extended : Bool := false
  zeroPage : Bool := false
  constant : Bool := false
  deriving DecidableEq, Repr, Inhabited

/-- Control-word field 3, eight bits (R7): the four signals the source names (R36, R201) and the four bits it gives no
name. -/
structure MiscControl where
  request : Bool := false
  acknowledge : Bool := false
  transferControl : Bool := false
  haltIndicator : Bool := false
  unnamed : BitVec 4 := 0
  deriving DecidableEq, Repr, Inhabited

/-- Control-word field 4, eight bits (R7): op select 3, link-select 2, shifter-select, ones-complement mode, OB-latch
enable (R36). The two bits of the shifter op are shared with these ("some control must be shared", 90_conflicts.md C10):
`Config.shiftOpOf` (log 41). -/
structure AluControl where
  op : AluOp := .clear
  linkSel : LinkSel := .keep
  shifterSelect : Bool := false
  onesComplement : Bool := false
  obLatch : Bool := false
  deriving DecidableEq, Repr, Inhabited

/-- The microcode control word, "an ordered 5-element tuple" (R36); field 0 is the next step and decode mode. The width of
field 0 is not given (R36, 91_not_in_source.md N2). DESIGN CHOICE (log 9): the next step is a natural number without a
bound, of which the microcode input carries the low bits (log 44). -/
structure ControlWord where
  nextStep : Nat := 0
  nextMode : DecodeMode := .service
  latch : LatchEnables := {}
  bus : BusControl := {}
  misc : MiscControl := {}
  alu : AluControl := {}
  deriving DecidableEq, Repr, Inhabited

/-- What propagate builds the 11-bit microcode input word from (R39, R116): the current control word's step and mode,
the live flags, IR, and the front-panel and coprocessor status. -/
structure EngineView where
  mode : DecodeMode
  step : Nat
  ir : Word
  zero : Bool
  skip : Bool
  maai : Bool
  panelCode : BitVec 4
  ack : Bool
  iotSkip : Bool
  deriving DecidableEq, Repr, Inhabited

/-- The microcode input, "2-bit mode + up to 9 bits of mode-specific step/flags", by what each mode must carry (R39). The
source gives no width for each part: log 44. -/
inductive MicroInput where
  /-- The step, and four bits of status: the front-panel code, or Zero, Skip and the coprocessor's acknowledge and skip. -/
  | service (step : BitVec 5) (status : BitVec 4)
  | instruction (opcode : BitVec 4) (step : BitVec 3) (indirect maai : Bool)
  /-- The stage, and the OPR bits that choose its action. -/
  | operate (secondStage : Bool) (action : BitVec 5)
  /-- The fourth code, of which the source says nothing (log 9). -/
  | unnamed (fields : BitVec 9)
  deriving DecidableEq, Repr, Inhabited

end Sys2Proof.Machine
end

