-- ==== Sys2Proof/Config.lean ====
section
/-! DEFINITION. What the spec leaves open: constants of one machine and free values, without a body, so that
nothing can be proved of their values; only the reset-entry word has the signals the spec gives it (spec
00_scope.md R5, R8; 93_implementation_defined.md). -/

namespace Sys2Proof.Config

open Sys2Proof.Machine

/-! Parameters of one machine that have no default (R8). -/

/-- EXT at reset: whether an indirection loads 15 bits or 13 (R35, D5; log 6). -/
opaque ext : Bool
/-- RTC_THRESHOLD: the clock's "fixed threshold" in cycles (R234, D21; log 6). -/
opaque rtcThreshold : Nat
/-- RTC_DRQ_CHANNEL: the clock's DRQ channel, 0 to 7 (R234, D21; log 6). -/
opaque rtcDrqChannel : Fin 8
/-- RDR_FLAG_RESET (R48, D35; log 5). -/
opaque rdrFlagReset : Bool
/-- TTY_FLAG_RESET (R49, D35; log 5). -/
opaque ttyFlagReset : Bool
/-- RTC_FLAG_RESET (R50, D35; log 5). -/
opaque rtcFlagReset : Bool

/-! Free values, each applied to the counter State.draws (log 7, 8, 9). -/

/-- CYCLES less one: an instruction takes cycleDraw k + 1 cycles (R293). -/
opaque cycleDraw : Nat → Nat
/-- Which of the instruction's cycles the coprocessor acts in, taken modulo their number (R209). -/
opaque actDraw : Nat → Nat
/-- MB at the end of an instruction (R34). -/
opaque freeMb : Nat → Word
/-- OB at the end of an instruction (R34). -/
opaque freeOb : Nat → Word
/-- Zero at the end of an instruction (R34). -/
opaque freeZero : Nat → Bool
/-- Sign at the end of an instruction (R34). -/
opaque freeSign : Nat → Bool
/-- Skip at the end of an instruction (R34). -/
opaque freeSkip : Nat → Bool
/-- The control-word slot `current` between steps (R37). -/
opaque freeCurrent : Nat → ControlWord
/-- The control-word slot `next` between steps (R37). -/
opaque freeNext : Nat → ControlWord

/-! The microcode, whose contents the source does not give (R114, 91_not_in_source.md N1, N2; log 9, 31, 32). -/

/-- What R281 does not give of the SERVICE reset-entry word: its next step, and the signals of fields 2, 3 and 4. -/
opaque resetEntryStep : Nat
opaque resetEntryBus : BusControl
opaque resetEntryMisc : MiscControl
opaque resetEntryAlu : AluControl

/-- The SERVICE reset-entry word, the control word `current` starts with (R37, R52): "the ALU op is CLEAR, its result 0 is
on the data bus, the latch enables of AC, PC, MQ, STEP (and MA) are set with the extended-addressing enable" (R281); it
keeps OB and core and asks the coprocessor for nothing, and stays in SERVICE, since nothing else changes and fetch
follows (R281; log 9). -/
def resetEntryWord : ControlWord where
  nextStep := resetEntryStep
  nextMode := .service
  latch := { ac := true, pc := true, mq := true, step := true, ma := true }
  bus := { resetEntryBus with source := .alu, extended := true }
  misc := { resetEntryMisc with request := false }
  alu := { resetEntryAlu with op := .clear, shifterSelect := false, obLatch := false }

/-- The control word `next` holds at reset. -/
opaque firstNextWord : ControlWord
/-- The numeric codes of the modes (R38): some numbering of the four, one for each (log 44). -/
opaque modeCode : Equiv.Perm (BitVec 2)
/-- The packing of the nine mode-specific bits, in each mode (R39): some one-to-one packing, so that none of what the mode
carries is lost (log 44). -/
opaque fieldPacking : DecodeMode → Equiv.Perm (BitVec 9)
/-- The range of SERVICE steps that read the front-panel code; the others read the flags and the coprocessor (R39, R116). -/
opaque stepReadsPanel : BitVec 5 → Bool
/-- The nine bits of the input under the fourth mode code, whose meaning is not in the source (R38; log 44). -/
opaque unnamedFields : EngineView → BitVec 9
/-- The Decode Table: "A total function from an 11-bit word ... to the 5-field control word" (R114). -/
opaque decodeTable : BitVec 11 → ControlWord
/-- Whether the engine reports JMPI_INTDET in a cycle of an indirect JMP with this step, mode and status (R46, R236; log 43). -/
opaque jmpiIntdet : EngineView → Bool
/-- The data bus's "small constant", selected by field 2's constant bit (R118). -/
opaque smallConstant : Bool → Word
/-- The shifter op of a field 4: its two bits are shared with the field's other signals in a way that is not in the
source (90_conflicts.md C10; log 41). -/
opaque shiftOpOf : AluControl → ShiftOp
/-- The ALU's carry-out of a subtraction, "unspecified (any value)" (R109). DESIGN CHOICE (log 31): one fixed function of
the operation, the ones-complement mode, OB, MB and Link, the inputs of a "purely combinational" ALU (R105). -/
opaque subtractCarry : AluOp → Bool → Word → Word → Bool → Bool

end Sys2Proof.Config
end

