-- ==== Sys2Proof/Syntax.lean ====
section
/-! DEFINITION. The instructions: one constructor for each of the 50 rows of spec/opcode_table.json (30_encoding.md R80
to R91). The 34 named OPR and IOT words have constructors of their own beside OPR and IOT (log 29). -/

namespace Sys2Proof

/-! The places of the fields and bits that the spec takes from general knowledge of the PDP-9 (93 G1 to G3; R14; log 42). The
defaults are the spec's. The skip bits 6 to 9 of OPR are the source's (R82). -/

/-- The lowest bit of each field of an IOT word (R83); `cla = none` is an IOT with no clear-AC bit, which the source does
not mention. -/
structure IotLayout where
  ign : Nat := 12
  dev : Nat := 6
  sub : Nat := 4
  cla : Option Nat := some 3
  pulse : Nat := 0
  deriving DecidableEq, Repr

/-- The places of the OPR bits that R82 has from general knowledge, and of the bit that must be 0. -/
structure OprLayout where
  bit13 : Nat := 13
  cla : Nat := 12
  cll : Nat := 11
  arot : Nat := 10
  hlt : Nat := 5
  rar : Nat := 4
  ral : Nat := 3
  oas : Nat := 2
  cml : Nat := 1
  cma : Nat := 0
  deriving DecidableEq, Repr

/-- The layout of the instruction word: the lowest bits of the opcode and of Y and the indirect bit (R81), OPR and IOT. -/
structure Layout where
  op : Nat := 14
  ind : Nat := 13
  y : Nat := 0
  opr : OprLayout := {}
  iot : IotLayout := {}
  deriving DecidableEq, Repr

/-- The fourteen low bits of an OPR word by name (R82). -/
structure OprBits where
  bit13 : Bool := false
  cla : Bool := false
  cll : Bool := false
  arot : Bool := false
  pol : Bool := false
  snl : Bool := false
  sza : Bool := false
  sma : Bool := false
  hlt : Bool := false
  rar : Bool := false
  ral : Bool := false
  oas : Bool := false
  cml : Bool := false
  cma : Bool := false
  deriving DecidableEq, Repr

/-- The twelve low bits of an IOT word by field (R83). -/
structure IotBits where
  dev : BitVec 6
  sub : BitVec 2 := 0
  cla : Bool := false
  pulse : BitVec 3 := 0
  deriving DecidableEq, Repr

/-- The instructions. `ind` is the indirect bit I and `y` the 13-bit address Y (R81); `low` is the low 14 bits of a word
whose I and Y are not used (R91); `ign` is IR[13:12], which an IOT ignores (R90). -/
inductive Instr where
  | cal (low : BitVec 14)
  | dac (ind : Bool) (y : BitVec 13)
  | jms (ind : Bool) (y : BitVec 13)
  | dzm (ind : Bool) (y : BitVec 13)
  | lac (ind : Bool) (y : BitVec 13)
  | xor (ind : Bool) (y : BitVec 13)
  | add (ind : Bool) (y : BitVec 13)
  | tad (ind : Bool) (y : BitVec 13)
  | xct (ind : Bool) (y : BitVec 13)
  | isz (ind : Bool) (y : BitVec 13)
  | and (ind : Bool) (y : BitVec 13)
  | sad (ind : Bool) (y : BitVec 13)
  | jmp (ind : Bool) (y : BitVec 13)
  | eae (low : BitVec 14)
  | iot (ign : BitVec 2) (b : IotBits)
  | opr (b : OprBits)
  -- named OPR words (R86)
  | nop | cma | cml | oas | ral | rar | hlt | sma | sza | snl | skp | spa | sna | szl
  | rtl | rtr | cll | stl | cla | clc | las | glk | claCll
  -- named IOT words (R87)
  | clsf (ign : BitVec 2)
  | clof (ign : BitVec 2)
  | clon (ign : BitVec 2)
  | rsf (ign : BitVec 2)
  | rcf (ign : BitVec 2)
  | rrb (ign : BitVec 2)
  | rsa (ign : BitVec 2)
  | rsb (ign : BitVec 2)
  | tsf (ign : BitVec 2)
  | tcf (ign : BitVec 2)
  | tls (ign : BitVec 2)
  deriving DecidableEq, Repr

end Sys2Proof
end

