-- ==== Sys2Proof/Machine/State.lean ====
section
/-! DEFINITION. The state of RDP-9 CORE as plain data, its stopping reasons, and the state after reset (spec 10_state.md
R20 to R52). -/

namespace Sys2Proof.Machine

/-- Core memory: (address, word) pairs in one canonical form (`Memory.wf`); core has no bytes (R60, R63; log 1). -/
abbrev Memory := List (Nat × Word)

/-- When the OPR skip test reads Zero, Sign and Link (R178). -/
inductive SkipSample where
  | beforeStage1 | afterStage1 | afterStage2
  deriving DecidableEq, Repr

/-- FP_CODE: "the 4-bit code of each front-panel action" (R8), by default the table of R264; 0 is neutral by the source
(R44). -/
structure PanelCodes where
  haltStep : BitVec 4 := 1
  /-- continue, a word of Lean -/
  cont : BitVec 4 := 2
  goTo : BitVec 4 := 3
  examine : BitVec 4 := 4
  examineNext : BitVec 4 := 5
  deposit : BitVec 4 := 6
  depositNext : BitVec 4 := 7
  readIn : BitVec 4 := 8
  execute : BitVec 4 := 9
  deriving DecidableEq, Repr

/-! What the spec takes from general knowledge: "a model should make each one a configuration field it can vary" (R14; 93 G1
to G10; log 42). -/

/-- The word that a store puts into core (R143, R144). -/
inductive StoreSource where
  | zero | ac | mq | step | switches
  deriving DecidableEq, Repr

/-- What a load puts into AC: the word at EA, or the ALU's combination of AC with it (R145). -/
inductive LoadRule where
  | word
  | combined (op : AluOp)
  deriving DecidableEq, Repr

/-- The two SERVICE steps that skip on OB (R128). -/
inductive SkipStep where
  | obZero | obNonzero
  deriving DecidableEq, Repr

/-- What a jump makes of EA: all of it, its offset in the bank of PC, or the word after it, as JMS goes (R161, R163). -/
inductive JumpTarget where
  | ea | eaInBank | afterEa
  deriving DecidableEq, Repr

/-- The bank that a word executed by XCT takes its direct address in: that of the current PC, or that of EA (R166). -/
inductive TargetBank where
  | ofPc | ofEa
  deriving DecidableEq, Repr

/-- G4: what DAC, DZM, LAC, XOR, AND, ADD, TAD, ISZ, SAD, JMP and XCT do (R143 to R151, each marked by the head of
41_memory_reference.md; R163, R166); by default the spec's. The signal of an indirect JMP is the source's (R163). -/
structure Transfers where
  /-- The word stored (R143, R144). -/
  dac : StoreSource := .ac
  dzm : StoreSource := .zero
  /-- The word loaded (R145). -/
  lac : LoadRule := .word
  /-- The ALU's operation on AC and the word at EA (R146, R149). -/
  xorOp : AluOp := .xor
  andOp : AluOp := .and
  /-- Whether the sum is in ones-complement mode (R147, R148). -/
  addOnes : Bool := true
  tadOnes : Bool := false
  /-- What ISZ adds to the word at EA, and how it skips (R150). -/
  iszAdds : Word := 1
  iszSkip : SkipStep := .obZero
  /-- How SAD compares, and how it skips (R151). -/
  sadOp : AluOp := .xor
  sadSkip : SkipStep := .obNonzero
  jmp : JumpTarget := .ea
  xctBank : TargetBank := .ofPc
  deriving DecidableEq, Repr

/-- One pulse of an IOT: bit 0, bit 1, bit 2 of the pulse field (R203). -/
inductive Pulse where
  | test | clear | start
  deriving DecidableEq, Repr

/-- G6: the order in which the pulses of one IOT act; R203 has test, clear, start. -/
inductive PulseOrder where
  | testClearStart | testStartClear | clearTestStart | clearStartTest | startTestClear | startClearTest
  deriving DecidableEq, Repr

/-- G6: what the write-back value does to AC: it is ORed into it (R207), or loaded. -/
inductive WriteBack where
  | or | load
  deriving DecidableEq, Repr

/-- G7: whether the first byte of a binary frame is the most significant (R226) or the least. -/
inductive FrameOrder where
  | firstHigh | firstLow
  deriving DecidableEq, Repr

/-- G10: the order inside OPR stage one (R177). -/
inductive StageOrder where
  | clearsFirst | complementsFirst
  deriving DecidableEq, Repr

/-- The general-knowledge points, each at the spec's value by default. -/
structure Family where
  /-- G1, G2, G3. -/
  layout : Layout := {}
  /-- G4. -/
  transfers : Transfers := {}
  /-- G5: the bit of sub that selects the reader's framing and the clock's enable (R224, R235). -/
  modeBit : Fin 2 := 1
  /-- G6. -/
  pulseOrder : PulseOrder := .testClearStart
  writeBack : WriteBack := .or
  /-- G7. -/
  frameOrder : FrameOrder := .firstHigh
  /-- G10. -/
  stageOrder : StageOrder := .clearsFirst
  deriving DecidableEq, Repr

/-- The parameters of a run (00_scope.md R8, R14), constant while the machine runs (R35; log 6). -/
structure Params where
  /-- EXT, the extend flag (R35). -/
  ext : Bool
  /-- PC_INC_EXTENDED: whether PC+1 carries into the bank (R27). -/
  pcIncExtended : Bool
  /-- AUTO_INDEX_LO and AUTO_INDEX_HI, offsets (R32). -/
  autoIndexLo : BitVec 13
  autoIndexHi : BitVec 13
  /-- OPR_SKIP_SAMPLE (R178). -/
  oprSkipSample : SkipSample
  /-- RTC_THRESHOLD (R234). -/
  rtcThreshold : Nat
  /-- RTC_DRQ_CHANNEL (R234). -/
  rtcDrqChannel : Fin 8
  /-- STEP_WIDTH (R33; G8). -/
  stepWidth : Nat := 6
  /-- FP_CODE (R264). -/
  fpCode : PanelCodes := {}
  /-- The general-knowledge points (R14). -/
  family : Family := {}
  deriving DecidableEq, Repr

/-- What halted the machine (R257); the end of a run tells HLT from NotImplemented (R284; log 34). -/
inductive HaltCause where
  | hlt | notImplemented | haltStep
  deriving DecidableEq, Repr

/-- RUN (R42). -/
inductive RunState where
  | running
  | halted (cause : HaltCause)
  deriving DecidableEq, Repr

/-- The bus a protocol error is about (R251). -/
inductive BusName where
  | data | address
  deriving DecidableEq, Repr

/-- The diagnostics, "reported via a logging collaborator; never raised as fatal errors" (R251). The two bus errors are
raised by the Level M bus only (R102, R103). -/
inductive Diag where
  | multipleAssert (bus : BusName)
  | floatingBus (bus : BusName)
  | notImplemented (ir : Word)
  | unknownDevice (dev : BitVec 6)
  deriving DecidableEq, Repr

/-- I/O coprocessor state (R47). How many clocks lie between busy and ack is not in the source (R201, 91 N28): the choice
is State.iocpClock's (log 39). -/
structure Iocp where
  busy : Bool := false
  reqPrev : Bool := false
  ack : Bool := false
  wbValid : Bool := false
  wb : Word := 0
  skip : Bool := false
  deriving DecidableEq, Repr

/-- The reader's mode (R48). -/
inductive ReaderMode where
  | null | alpha | binary
  deriving DecidableEq, Repr

/-- Paper-tape reader state (R48). -/
structure Reader where
  tape : List Byte
  ptr : Nat
  mode : ReaderMode
  delay : Nat
  buf : Word
  flag : Bool
  deriving DecidableEq, Repr

/-- Teleprinter state (R49). -/
structure Teleprinter where
  flag : Bool
  delay : Nat
  buf : Byte
  deriving DecidableEq, Repr

/-- Real-time clock state (R50). The counter's width is not in the source (91_not_in_source.md N9). DESIGN CHOICE (log 40):
it has no bound, so that it passes every threshold. -/
structure Clock where
  count : Nat
  enable : Bool
  flag : Bool
  drq : Bool
  deriving DecidableEq, Repr

/-- DRQ arbiter state: one request line and one grant line for each of the 8 channels (R51). -/
structure Drq where
  req : BitVec 8
  grant : BitVec 8
  outstanding : Bool
  deriving DecidableEq, Repr

/-- The state of the machine. INVENTORY.md lists each field with its rule and its reset value. -/
@[ext]
structure State where
  -- the register file (R20)
  ac : Word
  mb : Word
  mq : Word
  pc : Addr
  ma : Addr
  ir : Word
  ob : Word
  link : Bool
  zero : Bool
  sign : Bool
  skip : Bool
  -- STEP, of params.stepWidth bits: the bits above them are 0 (R33)
  stepReg : Word
  -- the two control-word slots (R37)
  currentWord : ControlWord
  nextWord : ControlWord
  params : Params
  run : RunState
  -- the engine waits in the "await-neutral" SERVICE step (R265)
  awaitNeutral : Bool
  -- the model's own: a chain of XCT goes on with the word in IR (R166; log 10)
  xctChain : Bool
  mem : Memory
  -- host-driven inputs (R43, R44)
  dataSwitches : Word
  addressSwitches : Addr
  panelCode : BitVec 4
  -- the interrupt-enable flag (R45)
  ion : Bool
  iocp : Iocp
  rdr : Reader
  tty : Teleprinter
  rtc : Clock
  drq : Drq
  -- the bytes emitted to the terminal sink, oldest first (R233)
  sink : List Byte
  -- the events of the diagnostics channel, oldest first (R251)
  diags : List Diag
  -- the model's own: how many free values have been drawn (log 37)
  draws : Nat
  deriving DecidableEq, Repr

/-- The reasons a machine stops with a fault. At Level I there is none: "This hardware raises no synchronous exception"
(R250), and the one event the spec calls a fault of the program, opcode 13, has an effect that the model gives it (R168; log
12). -/
inductive Fault where
  /-- Raised by a Level M cycle (Micro.cycle) that finds a logged violation of the bus discipline, which the event names: the
  hardware logs it and goes on, and a Level M model faults (R104; U1). exec and step never raise it. Safe. -/
  | busProtocol (event : Diag)
  deriving DecidableEq, Repr

/-- The situations the spec gives no meaning ("refuse", R11). -/
inductive Refusal where
  /-- Raised by exec for an instruction that has no meaning yet; no arm raises it. Safe. -/
  | notModelled (mnemonic : String)
  /-- Raised by CAL, opcode 0 (R167). Safe. -/
  | callHasNoTransfer
  /-- Raised by an OPR word with bit 13 set (R89 a, R176). Safe. -/
  | oprBit13
  /-- Raised by an OPR word with RAL and RAR both set (R89 b, R176). Safe. -/
  | oprRalWithRar
  /-- Raised by an OPR word with OAS and a rotate both set (R89 c, R176). Safe. -/
  | oprOasWithRotate
  /-- Raised by step when IRQ = 1: the spec describes no interrupt entry (R255). Safe. -/
  | interruptEntry
  /-- Raised by step when a DRQ grant is issued: its effect is not specified (R234, R244). Safe. -/
  | drqGrant
  deriving DecidableEq, Repr

/-- The parameters of the run from reset: the spec's defaults, and unknown constants where it has none (R8; log 6). -/
def Params.atReset : Params where
  ext := Config.ext
  pcIncExtended := false
  autoIndexLo := 0o10
  autoIndexHi := 0o17
  oprSkipSample := .afterStage1
  rtcThreshold := Config.rtcThreshold
  rtcDrqChannel := Config.rtcDrqChannel
  stepWidth := 6
  fpCode := {}
  family := {}

/-- The machine right after power-on and the SERVICE reset entry (R52, R280 to R282): nothing is listed in memory, and
what the spec leaves unspecified holds the value log 4 names. -/
def State.reset : State where
  ac := 0
  mb := 0
  mq := 0
  pc := 0
  ma := 0
  ir := 0
  ob := 0
  link := false
  zero := false
  sign := false
  skip := false
  stepReg := 0
  currentWord := Config.resetEntryWord
  nextWord := Config.firstNextWord
  params := Params.atReset
  run := .running
  awaitNeutral := false
  xctChain := false
  mem := []
  dataSwitches := 0
  addressSwitches := 0
  panelCode := 0
  ion := false
  iocp := {}
  rdr := { tape := [], ptr := 0, mode := .null, delay := 0, buf := 0, flag := Config.rdrFlagReset }
  tty := { flag := Config.ttyFlagReset, delay := 0, buf := 0 }
  rtc := { count := 0, enable := false, flag := Config.rtcFlagReset, drq := false }
  drq := { req := 0, grant := 0, outstanding := false }
  sink := []
  diags := []
  draws := 0

end Sys2Proof.Machine
end

