-- ==== Sys2Proof/Machine/Ops.lean ====
section
/-! DEFINITION. The named operations over core memory, addresses and registers (spec 10_state.md R25 to R32; 20_memory.md
R60 to R66). This hardware takes no exception (60_exceptions.md R250), so there is no operation for one. -/

namespace Sys2Proof.Machine

/-- What an instruction or a step answers. -/
abbrev Result := Host.Outcome State Fault Refusal

/-- Goes on with f where o is a next state, and stops as o stops otherwise. -/
def andThen (o : Result) (f : State → Result) : Result :=
  match o with
  | .next s => f s
  | .fault r => .fault r
  | .refused r => .refused r

/-! Core memory (R60, R65; log 2) -/

/-- What an unlisted word of core reads as: cleared core (log 2). -/
def Memory.unlisted : Word := 0

/-- The word at address key a. -/
def Memory.get : Memory → Nat → Word
  | [], _ => Memory.unlisted
  | (b, v) :: m, a => if a = b then v else Memory.get m a

/-- Puts (a, v) in front of the first entry of a larger address. -/
def Memory.insert (a : Nat) (v : Word) : Memory → Memory
  | [] => [(a, v)]
  | (b, u) :: m => if a < b then (a, v) :: (b, u) :: m else (b, u) :: Memory.insert a v m

/-- Stores v at address key a, keeping the canonical form: what an unlisted word reads as is not listed. -/
def Memory.set (m : Memory) (a : Nat) (v : Word) : Memory :=
  let rest := m.filter (fun c => c.1 != a)
  if v = Memory.unlisted then rest else Memory.insert a v rest

/-- Addresses strictly rise, each is one of the 32,768 (R60), and no entry equals what an unlisted word reads as. -/
def Memory.wf : Memory → Bool
  | [] => true
  | (a, v) :: m => decide (a < 32768) && decide (v ≠ Memory.unlisted) && m.all (fun c => decide (a < c.1)) && Memory.wf m

/-- MemRead(a) (R11, R65). -/
def Memory.read (m : Memory) (a : Addr) : Word := Memory.get m a.toNat

/-- MemWrite(a, v) (R11, R60). -/
def Memory.write (m : Memory) (a : Addr) (v : Word) : Memory := Memory.set m a.toNat v

/-- Writes words one after another (a bulk write by the host, R72). -/
def Memory.load (m : Memory) (image : List (Addr × Word)) : Memory :=
  image.foldl (fun m c => Memory.write m c.1 c.2) m

/-! Addresses (R11, R28) -/

/-- `bank(x) = x[14:13]` (R11). -/
def bank (a : Addr) : BitVec 2 := a.extractLsb' 13 2

/-- `off(x) = x[12:0]` (R11). -/
def offset (a : Addr) : BitVec 13 := a.extractLsb' 0 13

/-- `bank : off` (R68). -/
def mkAddr (b : BitVec 2) (o : BitVec 13) : Addr := b ++ o

/-- The MA and PC latch: an extended latch takes v[14:0], a non-extended one keeps the bank (R28). -/
def latchAddr (extended : Bool) (old : Addr) (v : Word) : Addr :=
  if extended then v.extractLsb' 0 15 else mkAddr (bank old) (v.extractLsb' 0 13)

/-- `inc(PC)`: within the bank, or over all 15 bits when PC_INC_EXTENDED is true (R27). -/
def inc (p : Params) (pc : Addr) : Addr :=
  if p.pcIncExtended then pc + 1 else mkAddr (bank pc) (offset pc + 1)

/-- An address as an 18-bit word, zero-extended. -/
def addrWord (a : Addr) : Word := a.zeroExtend 18

/-- The zero-page forced form of an address, `a & 0177` (R117, R141). -/
def zeroPage (a : Addr) : Addr := a &&& 0o177

/-! Registers -/

/-- The bits a STEP register of a width has (R33, R120); the data bus carries 18. -/
def stepMask (width : Nat) : Word := BitVec.ofNat 18 (2 ^ width - 1)

/-- MAAI of an address: its offset lies in the auto-index range (R32). -/
def Params.autoIndex (p : Params) (a : Addr) : Bool :=
  decide (p.autoIndexLo ≤ offset a) && decide (offset a ≤ p.autoIndexHi)

/-- The flag MAAI, a function of MA (R32; log 30). -/
def State.maai (s : State) : Bool := s.params.autoIndex s.ma

/-- The word at an address of core. -/
def State.read (s : State) (a : Addr) : Word := s.mem.read a

/-- Stores a word in core. -/
def State.write (s : State) (a : Addr) (v : Word) : State := { s with mem := s.mem.write a v }

/-- OB latches v, and Zero and Sign are derived from it (R30, R123); the Link is kept. -/
def State.latchOb (s : State) (v : Word) : State := { s with ob := v, zero := decide (v = 0), sign := v.msb }

/-- `PC <- inc(PC)`: the step after fetch, and a skip (R27, R127, R128). -/
def State.incPc (s : State) : State := { s with pc := inc s.params s.pc }

/-- A skip when the condition holds (R128). -/
def State.skipIf (s : State) (c : Bool) : State := { s with pc := if c then inc s.params s.pc else s.pc }

/-- RUN becomes HALTED (R257). -/
def State.halt (s : State) (cause : HaltCause) : State := { s with run := .halted cause }

/-- One event of the diagnostics channel (R251). -/
def State.log (s : State) (d : Diag) : State := { s with diags := s.diags ++ [d] }

/-- A violation of the bus discipline (R102 to R104, R251). -/
def isProtocolError : Diag → Bool
  | .multipleAssert _ | .floatingBus _ => true
  | .notImplemented _ | .unknownDevice _ => false

/-- The report of an unimplemented opcode (R168, R251). -/
def isNotImplemented : Diag → Bool
  | .notImplemented _ => true
  | .multipleAssert _ | .floatingBus _ | .unknownDevice _ => false

/-- The first violation of the bus discipline that the machine has logged. -/
def State.protocolError (s : State) : Option Diag := s.diags.find? isProtocolError

/-- The signal JMPI_INTDET: the clock clears its flag on seeing it (R46, R236). -/
def State.jmpiIntdet (s : State) : State := { s with rtc := { s.rtc with flag := false } }

/-- Loads IR with a word; MA takes its bits 12:0 in the bank of PC (R126, R270). -/
def State.loadIr (s : State) (w : Word) : State :=
  { s with ir := w, ma := mkAddr (bank s.pc) (w.extractLsb' 0 13) }

/-- Fetch of the word at PC into IR, MA, OB and MB (R126), and the unconditional PC increment (R127). -/
def State.fetch (s : State) : State :=
  let w := s.read s.pc
  ({ s.loadIr w with mb := w }.latchOb w).incPc

/-- The interrupt request: `IRQ = RTC.flag and ION` (R237, R253). -/
def State.irq (s : State) : Bool := s.ion && s.rtc.flag

end Sys2Proof.Machine
end

