-- ==== Sys2Proof/Machine/Operands.lean ====
section
/-! DEFINITION. The one operand form: the effective address, direct, indirect and auto-indexed (spec 30_encoding.md R84;
41_memory_reference.md R140, R141). -/

namespace Sys2Proof.Machine

/-- The direct address: Y in the bank the instruction was fetched from, which fetch left in MA (R126, R140; log 35). -/
def State.directAddr (s : State) (y : BitVec 13) : Addr := mkAddr (bank s.ma) y

/-- The cell an indirect reference increments, `MA & 0177`, when MAAI holds of the direct address (R32, R141). -/
def State.indexCell (s : State) (ind : Bool) (y : BitVec 13) : Option Addr :=
  if ind && s.params.autoIndex (s.directAddr y) then some (zeroPage (s.directAddr y)) else none

/-- A reference through an auto-index cell: the cell is read, incremented and written back, and the incremented value is
the pointer, loaded into MA (R141, 90_conflicts.md C3). Link is unchanged (D8). -/
def State.autoIndexed (s : State) (cell : Addr) : State :=
  let v := s.read cell + 1
  { ({ s with mb := s.read cell }.latchOb (s.read cell)).write cell v with ma := latchAddr s.params.ext s.ma v }

/-- A plain indirection: core[MA] into MA and MB (R141). -/
def State.indirect (s : State) : State :=
  { s with mb := s.read s.ma, ma := latchAddr s.params.ext s.ma (s.read s.ma) }

/-- The state after the effective address of a memory-reference instruction is computed: EA is its MA (R140, R141). -/
def State.resolve (s : State) (ind : Bool) (y : BitVec 13) : State :=
  let t := { s with ma := s.directAddr y }
  match s.indexCell ind y with
  | some cell => t.autoIndexed cell
  | none => if ind then t.indirect else t

end Sys2Proof.Machine
end

