-- ==== Sys2Proof/Machine/ControlTransfer.lean ====
section
/-! DEFINITION. JMS, JMP, CAL and opcode 13 (spec 42_control_transfer.md R160 to R168). XCT is in Machine/Execute.lean. -/

namespace Sys2Proof.Machine

/-- JMS: the return address goes to EA, zero-extended, and PC to EA + 1 over all 15 bits, whatever EXT is (R161). PC
passes through MB and OB. -/
def execJms (ind : Bool) (y : BitVec 13) (s : State) : Result :=
  let t := s.resolve ind y
  let ret := addrWord t.pc
  .next { ({ t with mb := ret }.latchOb ret).write t.ma ret with pc := t.ma + 1 }

/-- Where a jump goes. -/
def jumpPc (target : JumpTarget) (pc ea : Addr) : Addr :=
  match target with
  | .ea => ea
  | .eaInBank => mkAddr (bank pc) (offset ea)
  | .afterEa => ea + 1

/-- JMP: `PC <- EA`, all 15 bits (R163; G4, log 42); the indirect form asserts JMPI_INTDET (R163, R236). -/
def execJmp (ind : Bool) (y : BitVec 13) (s : State) : Result :=
  let t := s.resolve ind y
  let u := { t with pc := jumpPc t.params.family.transfers.jmp t.pc t.ma }
  .next (if ind then u.jmpiIntdet else u)

/-- CAL, opcode 0: the spec gives it no meaning, `refuse("CAL")` (R167). -/
def execCal (_low : BitVec 14) (_s : State) : Result := .refused .callHasNoTransfer

/-- Opcode 13, "EAE-reserved": a diagnostic, and RUN <- HALTED; nothing else changes (R168). -/
def execEae (_low : BitVec 14) (s : State) : Result :=
  .next ((s.log (.notImplemented s.ir)).halt .notImplemented)

end Sys2Proof.Machine
end

