-- ==== Sys2Proof/Machine/Devices.lean ====
section
/-! DEFINITION. The devices' ticks and start operations, the DRQ arbiter, and the passing of cycles (spec
44_iot_coprocessor_devices.md R221 to R244; 40_engine_bus_alu.md R101; 70_reset_and_hazards.md R293, R294). -/

namespace Sys2Proof.Machine

/-- The read delay of a framing: 10 cycles alpha, 30 cycles binary (R221, R224). -/
def readDelay : ReaderMode → Nat
  | .null => 0
  | .alpha => 10
  | .binary => 30

/-- The print delay: 300 cycles (R231). -/
def printDelay : Nat := 300

/-! Paper-tape reader -/

/-- How many bytes a frame needs (R221, R222). -/
def frameBytes : ReaderMode → Nat
  | .null => 0
  | .alpha => 1
  | .binary => 3

/-- The byte of the tape at position i. -/
def Reader.byteAt (r : Reader) (i : Nat) : Byte := r.tape.getD i 0

/-- The word of the frame at the read pointer: one unmasked byte (R223), or three bytes of 6 bits (R226), by the spec the
first the most significant (G7). -/
def Reader.frame (o : FrameOrder) (r : Reader) : Word :=
  let six (i : Nat) : BitVec 6 := (r.byteAt (r.ptr + i)).extractLsb' 0 6
  match r.mode with
  | .null => r.buf
  | .alpha => (r.byteAt r.ptr).zeroExtend 18
  | .binary =>
    match o with
    | .firstHigh => six 0 ++ six 1 ++ six 2
    | .firstLow => six 2 ++ six 1 ++ six 0

/-- What the reader does when its countdown is over: refill, or wait armed at the end of the tape (R222, R227). -/
def Reader.refill (o : FrameOrder) (r : Reader) : Reader :=
  if r.ptr + frameBytes r.mode ≤ r.tape.length then
    { r with buf := r.frame o, ptr := r.ptr + frameBytes r.mode, flag := true, mode := .null }
  else r

/-- The reader's tick (R222, R225). -/
def Reader.tick (o : FrameOrder) (r : Reader) : Reader :=
  if r.mode = .null then r
  else
    let u := { r with delay := r.delay - 1 }
    if u.delay = 0 then u.refill o else u

/-- The reader's start, pulse bit 2, in the binary or the alpha framing (R224). -/
def Reader.start (r : Reader) (binary : Bool) : Reader :=
  let m := if binary then ReaderMode.binary else ReaderMode.alpha
  { r with mode := m, delay := readDelay m }

/-! Teleprinter -/

/-- The teleprinter's tick (R232). -/
def Teleprinter.tick (t : Teleprinter) : Teleprinter :=
  if t.delay = 0 then t
  else { t with delay := t.delay - 1, flag := t.flag || decide (t.delay = 1) }

/-- A print request of a byte: the flag drops and the countdown starts (R231). -/
def Teleprinter.print (_t : Teleprinter) (b : Byte) : Teleprinter :=
  { flag := false, delay := printDelay, buf := b }

/-! Real-time clock -/

/-- Whether the clock's next tick passes the threshold (R234). -/
def Clock.expires (c : Clock) (threshold : Nat) : Bool := decide (threshold < c.count + 1)

/-- The clock's counter after a tick: it resets when it exceeds the threshold (R234). -/
def nextCount (threshold count : Nat) : Nat := if threshold < count + 1 then 0 else count + 1

/-- The clock's tick: the counter, and a request when it passes the threshold enabled (R234). -/
def Clock.tick (c : Clock) (threshold : Nat) : Clock :=
  { c with
    count := nextCount threshold c.count
    drq := c.drq || (c.expires threshold && c.enable) }

/-- The clock's start, pulse bit 2, with this enable (R235). -/
def Clock.start (c : Clock) (enable : Bool) : Clock := { c with enable := enable, count := 0 }

/-! DRQ arbiter -/

/-- One request or grant line. -/
def channelLine (ch : Fin 8) : BitVec 8 := BitVec.twoPow 8 ch.val

/-- Channel ch requests (R234). -/
def Drq.request (d : Drq) (ch : Fin 8) : Drq := { d with req := d.req ||| channelLine ch }

/-- Channel ch drops its request (R242). -/
def Drq.drop (d : Drq) (ch : Fin 8) : Drq := { d with req := d.req &&& ~~~channelLine ch }

/-- The lowest requesting channel: "lowest channel index wins" (R240). -/
def Drq.lowest (d : Drq) : Option (Fin 8) := (List.finRange 8).find? (fun c => d.req.getLsbD c.val)

/-- The arbiter's evaluation (R241): an outstanding grant is withdrawn, otherwise the lowest request is granted. -/
def Drq.evaluate (d : Drq) : Drq :=
  if d.outstanding then { d with grant := 0, outstanding := false }
  else
    match d.lowest with
    | some c => { d with grant := channelLine c, outstanding := true }
    | none => d

/-! The passing of cycles -/

/-- The device ticks and the arbiter's evaluation of one cycle (R101). -/
def State.tickDevices (s : State) : State :=
  let req := s.rtc.expires s.params.rtcThreshold && s.rtc.enable
  { s with
    rdr := s.rdr.tick s.params.family.frameOrder
    tty := s.tty.tick
    rtc := s.rtc.tick s.params.rtcThreshold
    drq := (if req then s.drq.request s.params.rtcDrqChannel else s.drq).evaluate }

/-- One cycle of the devices, refused when the clock sees a grant (R234) or a grant is issued (R244). -/
def State.cycle (s : State) : Result :=
  if s.drq.grant.getLsbD s.params.rtcDrqChannel.val then .refused .drqGrant
  else if s.tickDevices.drq.grant = 0 then .next s.tickDevices
  else .refused .drqGrant

/-- n cycles of the devices, one after another (R131). -/
def State.cycles : Nat → State → Result
  | 0, s => .next s
  | n + 1, s => andThen s.cycle (State.cycles n)

/-- No DRQ request can arise or is pending: the clock is disabled and the arbiter is at rest. -/
def State.drqQuiet (s : State) : Bool :=
  !s.rtc.enable && decide (s.drq.req = 0) && decide (s.drq.grant = 0) && !s.drq.outstanding

/-- n cycles of the devices when no DRQ request can arise: the devices share no state (R101), so each ticks by itself. -/
def State.quietCycles (n : Nat) (s : State) : State :=
  { s with
    rdr := (Reader.tick s.params.family.frameOrder)^[n] s.rdr
    tty := Teleprinter.tick^[n] s.tty
    rtc := { s.rtc with count := (nextCount s.params.rtcThreshold)^[n] s.rtc.count } }

/-- The devices and the arbiter advance n cycles (R131). The two cases agree (`advance_eq_cycles`); the first has an
answer that can be computed whatever the number of cycles is. -/
def State.advance (n : Nat) (s : State) : Result :=
  if s.drqQuiet then .next (s.quietCycles n) else s.cycles n

end Sys2Proof.Machine
end

