-- ==== Sys2Proof/Machine/Iot.lean ====
section
/-! DEFINITION. IOT, the I/O coprocessor and the 11 named IOT words (spec 44_iot_coprocessor_devices.md R200 to R220). -/

namespace Sys2Proof.Machine

/-- The three populated device ids (R62). -/
inductive Device where
  | clock | reader | teleprinter
  deriving DecidableEq, Repr

/-- The device with an id: 0 clock, 1 reader, 4 teleprinter (R62, R200). -/
def deviceOf (dev : BitVec 6) : Option Device :=
  if dev = 0 then some .clock
  else if dev = 1 then some .reader
  else if dev = 4 then some .teleprinter
  else none

/-- A device's ready flag. -/
def State.ready (s : State) : Device → Bool
  | .clock => s.rtc.flag
  | .reader => s.rdr.flag
  | .teleprinter => s.tty.flag

/-- Pulse bit 1: the ready flag becomes 0 (R205). -/
def State.clearReady (s : State) : Device → State
  | .clock => { s with rtc := { s.rtc with flag := false } }
  | .reader => { s with rdr := { s.rdr with flag := false } }
  | .teleprinter => { s with tty := { s.tty with flag := false } }

/-- Pulse bit 2: a new operation starts, by the spec with sub[1] as the clock's enable and the reader's framing (G5); the
teleprinter emits AC[7:0] at once (R206, R224, R231, R235). -/
def State.startDevice (s : State) (sub : BitVec 2) : Device → State
  | .clock => { s with rtc := s.rtc.start (sub.getLsbD s.params.family.modeBit) }
  | .reader => { s with rdr := s.rdr.start (sub.getLsbD s.params.family.modeBit) }
  | .teleprinter => { s with tty := s.tty.print (s.ac.extractLsb' 0 8), sink := s.sink ++ [s.ac.extractLsb' 0 8] }

/-- The bit of the pulse field that commands a pulse (R203). -/
def Pulse.bit : Pulse → Nat
  | .test => 0
  | .clear => 1
  | .start => 2

/-- The pulses in an order. -/
def PulseOrder.list : PulseOrder → List Pulse
  | .testClearStart => [.test, .clear, .start]
  | .testStartClear => [.test, .start, .clear]
  | .clearTestStart => [.clear, .test, .start]
  | .clearStartTest => [.clear, .start, .test]
  | .startTestClear => [.start, .test, .clear]
  | .startClearTest => [.start, .clear, .test]

/-- The reader delivers its word, to be carried by the acknowledge (R205). -/
def State.deliver (s : State) : Device → State
  | .reader => { s with iocp := { s.iocp with wbValid := true, wb := s.rdr.buf } }
  | .clock | .teleprinter => s

/-- One pulse on a device: the test puts the ready flag in the acknowledge's skip signal (R204), the clear also delivers
(R205), the start starts (R206). -/
def State.onePulse (s : State) (d : Device) (sub : BitVec 2) : Pulse → State
  | .test => { s with iocp := { s.iocp with skip := s.ready d } }
  | .clear => (s.deliver d).clearReady d
  | .start => s.startDevice sub d

/-- One pulse on a device if its bit is set (R203). -/
def State.pulseIf (s : State) (d : Device) (sub : BitVec 2) (pulse : BitVec 3) (p : Pulse) : State :=
  match pulse.getLsbD p.bit with
  | true => s.onePulse d sub p
  | false => s

/-- The pulses of an IOT on a device, each that is set with its full effect, by the spec in the order bit 0, bit 1, bit 2
(R203; the order is G6), under the acknowledge that carries their skip signal and word (R201). -/
def State.pulse (s : State) (d : Device) (sub : BitVec 2) (pulse : BitVec 3) : State :=
  s.params.family.pulseOrder.list.foldl (fun t p => t.pulseIf d sub pulse p)
    { s with iocp := { ack := true, reqPrev := true } }

/-- The coprocessor carries out a request: the pulses of a populated device, or the diagnostic of an unknown one, which
it acknowledges with no effect (R201, R208). -/
def State.iocpPerform (s : State) (dev : BitVec 6) (sub : BitVec 2) (pulse : BitVec 3) : State :=
  match deviceOf dev with
  | some d => s.pulse d sub pulse
  | none => { s.log (.unknownDevice dev) with iocp := { ack := true, reqPrev := true } }

/-- The coprocessor sees a request: it is busy until it acknowledges (R47, R201). -/
def State.iocpRequest (s : State) : State := { s with iocp := { busy := true, reqPrev := true } }

/-- AC with a write-back value, by the spec ORed into it (R207, G6). -/
def combineWriteBack : WriteBack → Word → Word → Word
  | .or, ac, wb => ac ||| wb
  | .load, _, wb => wb

/-- The CPU takes the write-back value that the acknowledge carries, once (R201, R207). -/
def State.takeWriteBack (s : State) : State :=
  { s with
    ac := if s.iocp.wbValid then combineWriteBack s.params.family.writeBack s.ac s.iocp.wb else s.ac
    iocp := { s.iocp with wbValid := false } }

/-- The CPU takes the acknowledge: the write-back value goes into AC, a skip signal adds 1 to PC, and the request is
dropped, which brings the coprocessor back to rest (R201, R204, R207; log 27). -/
def State.takeAck (s : State) : State := { s.takeWriteBack with iocp := {} }.skipIf s.iocp.skip

/-- The rule of every IOT (R200): the optional clear of AC, the request, the acknowledge. -/
def iotTransfer (b : IotBits) (s : State) : Result :=
  let t := if b.cla then { s with ac := 0 } else s
  .next (t.iocpRequest.iocpPerform b.dev b.sub b.pulse).takeAck

/-- IOT (R200); IR[13:12] are ignored (R90). -/
def execIot (_ign : BitVec 2) (b : IotBits) (s : State) : Result := iotTransfer b s
/-- CLSF: skip if the clock's flag is 1 (R210). -/
def execClsf (_ign : BitVec 2) (s : State) : Result := iotTransfer { dev := 0, pulse := 1 } s
/-- CLOF: the clock is disabled and its count cleared (R211). -/
def execClof (_ign : BitVec 2) (s : State) : Result := iotTransfer { dev := 0, pulse := 4 } s
/-- CLON: the clock is enabled and its count cleared (R212). -/
def execClon (_ign : BitVec 2) (s : State) : Result := iotTransfer { dev := 0, sub := 2, pulse := 4 } s
/-- RSF: skip if the reader's flag is 1 (R213). -/
def execRsf (_ign : BitVec 2) (s : State) : Result := iotTransfer { dev := 1, pulse := 1 } s
/-- RCF: the reader's word ORed into AC, its flag cleared (R214). -/
def execRcf (_ign : BitVec 2) (s : State) : Result := iotTransfer { dev := 1, pulse := 2 } s
/-- RRB: the reader's word into AC, its flag cleared (R215). -/
def execRrb (_ign : BitVec 2) (s : State) : Result := iotTransfer { dev := 1, cla := true, pulse := 2 } s
/-- RSA: the reader starts, alpha framing (R216). -/
def execRsa (_ign : BitVec 2) (s : State) : Result := iotTransfer { dev := 1, pulse := 4 } s
/-- RSB: the reader starts, binary framing (R217). -/
def execRsb (_ign : BitVec 2) (s : State) : Result := iotTransfer { dev := 1, sub := 2, pulse := 4 } s
/-- TSF: skip if the teleprinter's flag is 1 (R218). -/
def execTsf (_ign : BitVec 2) (s : State) : Result := iotTransfer { dev := 4, pulse := 1 } s
/-- TCF: the teleprinter's flag is cleared (R219). -/
def execTcf (_ign : BitVec 2) (s : State) : Result := iotTransfer { dev := 4, pulse := 2 } s
/-- TLS: the teleprinter's flag is cleared and AC[7:0] printed (R220). -/
def execTls (_ign : BitVec 2) (s : State) : Result := iotTransfer { dev := 4, pulse := 6 } s

end Sys2Proof.Machine
end

