-- ==== Sys2Proof/Machine/Flags.lean ====
section
/-! DEFINITION. The ALU and every flag computation (spec 10_state.md R30, R31; 40_engine_bus_alu.md R105 to R113, R128;
43_operate.md R180). -/

namespace Sys2Proof.Machine

/-- The Zero flag of a word: 1 exactly when it is 0 (R30, 90_conflicts.md C8). -/
def zeroOf (v : Word) : Bool := decide (v = 0)

/-- The Sign flag of a word: its bit 17 (R30). -/
def signOf (v : Word) : Bool := v.msb

/-- The skip test: selected conditions, then the polarity bit (R31, R128, R180). -/
def skipTest (zero sign link selZero selSign selLink polarity : Bool) : Bool :=
  ((zero && selZero) || (sign && selSign) || (link && selLink)) ^^ polarity

/-- The Skip flag of an instruction word and the flags: bits 7, 6, 8 select, bit 9 is the polarity (R31). -/
def skipOfWord (ir : Word) (zero sign link : Bool) : Bool :=
  skipTest zero sign link (ir.getLsbD 7) (ir.getLsbD 6) (ir.getLsbD 8) (ir.getLsbD 9)

/-- Whether a SERVICE skip step skips on this OB (R128). -/
def skipStepTaken (step : SkipStep) (ob : Word) : Bool :=
  match step with
  | .obZero => zeroOf ob
  | .obNonzero => !zeroOf ob

/-- The 19-bit `link : v`, the Link above an 18-bit value as bit 18 (R9, R105). -/
def withLink (link : Bool) (v : Word) : BitVec 19 := BitVec.ofBool link ++ v

/-- Bits 17:0 of a 19-bit value. -/
def lowWord (x : BitVec 19) : Word := x.extractLsb' 0 18

/-- An 18-bit addition with its end-around carry added back (R108, R109). -/
def endAround (a b : Word) : Word :=
  let s := withLink false a + withLink false b
  lowWord s + (if s.msb then 1 else 0)

/-- ADD in two's complement: the 19-bit sum with the Link as bit 18 of `arith_a` (R107). -/
def addTwos (ob mb : Word) (link : Bool) : Word × Bool :=
  let s := withLink link ob + withLink false mb
  (lowWord s, s.msb)

/-- ADD in ones-complement mode: end-around carry, and a Link that overflow sets and nothing clears (R108). -/
def addOnes (ob mb : Word) (link : Bool) : Word × Bool :=
  let r := endAround ob mb
  (r, link || (ob.msb == mb.msb && r.msb != ob.msb))

/-- A subtraction, `(minuend − subtrahend) − 1` (R109). -/
def subtract (ones : Bool) (minuend subtrahend : Word) : Word :=
  if ones then endAround minuend (~~~subtrahend) else minuend - subtrahend - 1

/-- `arith_out` and `arith_carry` of an operation (R106 to R109). The carry of a subtraction is any value; that it is a
function of these five inputs is the model's DESIGN CHOICE (log 31). -/
def arith (op : AluOp) (ones : Bool) (ob mb : Word) (link : Bool) : Word × Bool :=
  match op with
  | .clear => (0, link)
  | .bMinusA => (subtract ones mb ob, Config.subtractCarry op ones ob mb link)
  | .aMinusB => (subtract ones ob mb, Config.subtractCarry op ones ob mb link)
  | .add => if ones then addOnes ob mb link else addTwos ob mb link
  | .xor => (ob ^^^ mb, link)
  | .or => (ob ||| mb, link)
  | .and => (ob &&& mb, link)
  | .preset => (BitVec.allOnes 18, link)

/-- `shift_out` and `shift_link`: the 19-bit ring `link : ob` turned by one or two places (R110). -/
def shift (op : ShiftOp) (ob : Word) (link : Bool) : Word × Bool :=
  let ring := withLink link ob
  let turned :=
    match op with
    | .rar => ring.rotateRight 1
    | .ral => ring.rotateLeft 1
    | .rtr => ring.rotateRight 2
    | .rtl => ring.rotateLeft 2
  (lowWord turned, turned.msb)

/-- The outputs of the ALU (R105). -/
structure AluOut where
  arithOut : Word
  arithCarry : Bool
  shiftOut : Word
  shiftLink : Bool
  nextLink : Bool
  result : Word
  deriving DecidableEq, Repr

/-- The ALU, "purely combinational" (R105, R111, R112). -/
def alu (c : AluControl) (ob mb : Word) (link : Bool) : AluOut :=
  let a := arith c.op c.onesComplement ob mb link
  let sh := shift (Config.shiftOpOf c) ob link
  { arithOut := a.1
    arithCarry := a.2
    shiftOut := sh.1
    shiftLink := sh.2
    nextLink :=
      match c.linkSel with
      | .keep => link
      | .complement => !link
      | .fromArithmetic => a.2
      | .fromShifter => sh.2
    result := if c.shifterSelect then sh.1 else a.1 }

end Sys2Proof.Machine
end

