-- ==== Sys2Proof/Machine/MemoryReference.lean ====
section
/-! DEFINITION. The memory-reference instructions (spec 41_memory_reference.md R142 to R151). Each resolves its effective
address first, with the auto-index side effect (R142); EA is MA of the resolved state t. What the spec has from general
knowledge is read from the run's transfers (G4, log 42). -/

namespace Sys2Proof.Machine

/-- The word of a store's source. -/
def State.storeValue (s : State) (source : StoreSource) : Word :=
  match source with
  | .zero => 0
  | .ac => s.ac
  | .mq => s.mq
  | .step => s.stepReg
  | .switches => s.dataSwitches

/-- DAC: `MemWrite(EA, AC)` (R143). -/
def execDac (ind : Bool) (y : BitVec 13) (s : State) : Result :=
  let t := s.resolve ind y
  .next (t.write t.ma (t.storeValue t.params.family.transfers.dac))

/-- DZM: `MemWrite(EA, 0)` (R144). -/
def execDzm (ind : Bool) (y : BitVec 13) (s : State) : Result :=
  let t := s.resolve ind y
  .next (t.write t.ma (t.storeValue t.params.family.transfers.dzm))

/-- The word a load puts into AC, of the word m at EA. -/
def State.loadValue (s : State) (rule : LoadRule) (m : Word) : Word :=
  match rule with
  | .word => m
  | .combined op => (arith op false s.ac m s.link).1

/-- LAC: `AC <- MemRead(EA)` (R145). -/
def execLac (ind : Bool) (y : BitVec 13) (s : State) : Result :=
  let t := s.resolve ind y
  .next { t with ac := t.loadValue t.params.family.transfers.lac (t.read t.ma) }

/-- XOR: `AC <- AC ^ MemRead(EA)`, the ALU op XOR (R146). -/
def execXor (ind : Bool) (y : BitVec 13) (s : State) : Result :=
  let t := s.resolve ind y
  .next { t with ac := (arith t.params.family.transfers.xorOp false t.ac (t.read t.ma) t.link).1 }

/-- ADD: the ALU's ADD in ones-complement mode; the Link is sticky on overflow (R147). -/
def execAdd (ind : Bool) (y : BitVec 13) (s : State) : Result :=
  let t := s.resolve ind y
  let r := arith .add t.params.family.transfers.addOnes t.ac (t.read t.ma) t.link
  .next { t with ac := r.1, link := r.2 }

/-- TAD: the ALU's ADD in two's complement; the Link takes bit 18 of the sum (R148). -/
def execTad (ind : Bool) (y : BitVec 13) (s : State) : Result :=
  let t := s.resolve ind y
  let r := arith .add t.params.family.transfers.tadOnes t.ac (t.read t.ma) t.link
  .next { t with ac := r.1, link := r.2 }

/-- AND: `AC <- AC & MemRead(EA)`, the ALU op AND (R149). -/
def execAnd (ind : Bool) (y : BitVec 13) (s : State) : Result :=
  let t := s.resolve ind y
  .next { t with ac := (arith t.params.family.transfers.andOp false t.ac (t.read t.ma) t.link).1 }

/-- ISZ: increments the word at EA and skips if it became 0; Link unchanged, Zero and Sign reflect the word (R150). -/
def execIsz (ind : Bool) (y : BitVec 13) (s : State) : Result :=
  let t := s.resolve ind y
  let v := t.read t.ma + t.params.family.transfers.iszAdds
  .next (((t.write t.ma v).latchOb v).skipIf (skipStepTaken t.params.family.transfers.iszSkip v))

/-- SAD: skips if AC differs from the word at EA; the difference goes to OB only (R151). -/
def execSad (ind : Bool) (y : BitVec 13) (s : State) : Result :=
  let t := s.resolve ind y
  let d := (arith t.params.family.transfers.sadOp false t.ac (t.read t.ma) t.link).1
  .next ((t.latchOb d).skipIf (skipStepTaken t.params.family.transfers.sadSkip d))

end Sys2Proof.Machine
end

