-- ==== Sys2Proof/WellFormed.lean ====
section
/-! DEFINITION. Well-formed instructions: OPR and IOT stand only for words that have no name of their own, so that each
word is spelled by exactly one instruction (log 29). -/

namespace Sys2Proof

/-- The bits set in each named OPR word, in the order of R86 (and R198 for the last). -/
def namedOpr : List OprBits :=
  [{}, {cma := true}, {cml := true}, {oas := true}, {ral := true}, {rar := true}, {hlt := true}, {sma := true},
   {sza := true}, {snl := true}, {pol := true}, {pol := true, sma := true}, {pol := true, sza := true},
   {pol := true, snl := true}, {arot := true, ral := true}, {arot := true, rar := true}, {cll := true},
   {cll := true, cml := true}, {cla := true}, {cla := true, cma := true}, {cla := true, oas := true},
   {cla := true, ral := true}, {cla := true, cll := true}]

/-- The fields of each named IOT word, in the order of R87. -/
def namedIot : List IotBits :=
  [{dev := 0, pulse := 1}, {dev := 0, pulse := 4}, {dev := 0, sub := 2, pulse := 4}, {dev := 1, pulse := 1},
   {dev := 1, pulse := 2}, {dev := 1, cla := true, pulse := 2}, {dev := 1, pulse := 4},
   {dev := 1, sub := 2, pulse := 4}, {dev := 4, pulse := 1}, {dev := 4, pulse := 2}, {dev := 4, pulse := 6}]

/-- An OPR or IOT instruction is well formed when its word has no name of its own; every other instruction is. -/
def Instr.wf : Instr → Bool
  | .opr b => !namedOpr.contains b
  | .iot _ b => !namedIot.contains b
  | _ => true

end Sys2Proof
end

