-- ==== Sys2Proof/Decode.lean ====
section
/-! DEFINITION. Decoding and encoding of the 18-bit word (30_encoding.md R81 to R87, R91); the encoder is in the spec's
layout. Decoding is total: "No word fails to decode; the refusals are of meaning, not of spelling" (R91). -/

namespace Sys2Proof

/-- The fourteen bits of an OPR word, each at its place in the layout, by default that of R82. -/
def OprBits.ofWord (w : Word) (l : OprLayout := {}) : OprBits where
  bit13 := w.getLsbD l.bit13
  cla := w.getLsbD l.cla
  cll := w.getLsbD l.cll
  arot := w.getLsbD l.arot
  pol := w.getLsbD 9
  snl := w.getLsbD 8
  sza := w.getLsbD 7
  sma := w.getLsbD 6
  hlt := w.getLsbD l.hlt
  rar := w.getLsbD l.rar
  ral := w.getLsbD l.ral
  oas := w.getLsbD l.oas
  cml := w.getLsbD l.cml
  cma := w.getLsbD l.cma

/-- The fields of an IOT word, each at its place in the layout, by default that of R83. -/
def IotBits.ofWord (w : Word) (l : IotLayout := {}) : IotBits where
  dev := w.extractLsb' l.dev 6
  sub := w.extractLsb' l.sub 2
  cla := l.cla.any w.getLsbD
  pulse := w.extractLsb' l.pulse 3

/-- The named OPR words (R86; CLA!CLL by R198). -/
def oprNames : List (OprBits × Instr) :=
  [({}, .nop), ({cma := true}, .cma), ({cml := true}, .cml), ({oas := true}, .oas), ({ral := true}, .ral),
   ({rar := true}, .rar), ({hlt := true}, .hlt), ({sma := true}, .sma), ({sza := true}, .sza),
   ({snl := true}, .snl), ({pol := true}, .skp), ({pol := true, sma := true}, .spa),
   ({pol := true, sza := true}, .sna), ({pol := true, snl := true}, .szl), ({arot := true, ral := true}, .rtl),
   ({arot := true, rar := true}, .rtr), ({cll := true}, .cll), ({cll := true, cml := true}, .stl),
   ({cla := true}, .cla), ({cla := true, cma := true}, .clc), ({cla := true, oas := true}, .las),
   ({cla := true, ral := true}, .glk), ({cla := true, cll := true}, .claCll)]

/-- The named IOT words (R87), with the ignored bits 13:12 kept as given (R90). -/
def iotNames (ign : BitVec 2) : List (IotBits × Instr) :=
  [({dev := 0, pulse := 1}, .clsf ign), ({dev := 0, pulse := 4}, .clof ign),
   ({dev := 0, sub := 2, pulse := 4}, .clon ign), ({dev := 1, pulse := 1}, .rsf ign),
   ({dev := 1, pulse := 2}, .rcf ign), ({dev := 1, cla := true, pulse := 2}, .rrb ign),
   ({dev := 1, pulse := 4}, .rsa ign), ({dev := 1, sub := 2, pulse := 4}, .rsb ign),
   ({dev := 4, pulse := 1}, .tsf ign), ({dev := 4, pulse := 2}, .tcf ign), ({dev := 4, pulse := 6}, .tls ign)]

/-- The operate word with these bits: its own name where it has one. -/
def decodeOpr (b : OprBits) : Instr := (oprNames.lookup b).getD (.opr b)

/-- The IOT word with these fields: its own name where it has one. -/
def decodeIot (ign : BitVec 2) (b : IotBits) : Instr := ((iotNames ign).lookup b).getD (.iot ign b)

/-- The instruction of a word in a layout (R81, R85, R91). -/
def decodeWith (l : Layout) (w : Word) : Instr :=
  let ind := w.getLsbD l.ind
  let y := w.extractLsb' l.y 13
  match (w.extractLsb' l.op 4).toNat with
  | 0 => .cal (w.extractLsb' 0 14)
  | 1 => .dac ind y
  | 2 => .jms ind y
  | 3 => .dzm ind y
  | 4 => .lac ind y
  | 5 => .xor ind y
  | 6 => .add ind y
  | 7 => .tad ind y
  | 8 => .xct ind y
  | 9 => .isz ind y
  | 10 => .and ind y
  | 11 => .sad ind y
  | 12 => .jmp ind y
  | 13 => .eae (w.extractLsb' 0 14)
  | 14 => decodeIot (w.extractLsb' l.iot.ign 2) (IotBits.ofWord w l.iot)
  | _ => decodeOpr (OprBits.ofWord w l.opr)

/-- The instruction of a word in the spec's layout (R81 to R83, R91). -/
def decode (w : Word) : Instr := decodeWith {} w

/-- The number of an instruction's opcode, bits 17:14 of its word (R85). -/
def Instr.opcode : Instr → BitVec 4
  | .cal _ => 0
  | .dac _ _ => 1
  | .jms _ _ => 2
  | .dzm _ _ => 3
  | .lac _ _ => 4
  | .xor _ _ => 5
  | .add _ _ => 6
  | .tad _ _ => 7
  | .xct _ _ => 8
  | .isz _ _ => 9
  | .and _ _ => 10
  | .sad _ _ => 11
  | .jmp _ _ => 12
  | .eae _ => 13
  | .iot _ _ | .clsf _ | .clof _ | .clon _ | .rsf _ | .rcf _ | .rrb _ | .rsa _ | .rsb _ | .tsf _ | .tcf _ | .tls _ => 14
  | .opr _ | .nop | .cma | .cml | .oas | .ral | .rar | .hlt | .sma | .sza | .snl | .skp | .spa | .sna | .szl | .rtl
  | .rtr | .cll | .stl | .cla | .clc | .las | .glk | .claCll => 15

/-- A memory-reference word: op 17:14, I 13, Y 12:0 (R81). -/
def encodeMr (op : BitVec 4) (ind : Bool) (y : BitVec 13) : Word := op ++ BitVec.ofBool ind ++ y

/-- An operate word: opcode 15 and the bits of R82, bit 13 first. -/
def encodeOpr (b : OprBits) : Word :=
  (15 : BitVec 4) ++ BitVec.ofBool b.bit13 ++ BitVec.ofBool b.cla ++ BitVec.ofBool b.cll ++ BitVec.ofBool b.arot
    ++ BitVec.ofBool b.pol ++ BitVec.ofBool b.snl ++ BitVec.ofBool b.sza ++ BitVec.ofBool b.sma
    ++ BitVec.ofBool b.hlt ++ BitVec.ofBool b.rar ++ BitVec.ofBool b.ral ++ BitVec.ofBool b.oas
    ++ BitVec.ofBool b.cml ++ BitVec.ofBool b.cma

/-- An IOT word: opcode 14, the ignored bits 13:12 and the fields of R83. -/
def encodeIot (ign : BitVec 2) (b : IotBits) : Word :=
  (14 : BitVec 4) ++ ign ++ b.dev ++ b.sub ++ BitVec.ofBool b.cla ++ b.pulse

/-- The word of a named IOT instruction, its low twelve bits as R87 lists them. -/
def encodeIotName (ign : BitVec 2) (low : BitVec 12) : Word := (14 : BitVec 4) ++ ign ++ low

/-- The word of an instruction (R81 to R87). -/
def encode : Instr → Word
  | .cal low => (0 : BitVec 4) ++ low
  | .dac ind y => encodeMr 1 ind y
  | .jms ind y => encodeMr 2 ind y
  | .dzm ind y => encodeMr 3 ind y
  | .lac ind y => encodeMr 4 ind y
  | .xor ind y => encodeMr 5 ind y
  | .add ind y => encodeMr 6 ind y
  | .tad ind y => encodeMr 7 ind y
  | .xct ind y => encodeMr 8 ind y
  | .isz ind y => encodeMr 9 ind y
  | .and ind y => encodeMr 10 ind y
  | .sad ind y => encodeMr 11 ind y
  | .jmp ind y => encodeMr 12 ind y
  | .eae low => (13 : BitVec 4) ++ low
  | .iot ign b => encodeIot ign b
  | .opr b => encodeOpr b
  | .nop => 0o740000
  | .cma => 0o740001
  | .cml => 0o740002
  | .oas => 0o740004
  | .ral => 0o740010
  | .rar => 0o740020
  | .hlt => 0o740040
  | .sma => 0o740100
  | .sza => 0o740200
  | .snl => 0o740400
  | .skp => 0o741000
  | .spa => 0o741100
  | .sna => 0o741200
  | .szl => 0o741400
  | .rtl => 0o742010
  | .rtr => 0o742020
  | .cll => 0o744000
  | .stl => 0o744002
  | .cla => 0o750000
  | .clc => 0o750001
  | .las => 0o750004
  | .glk => 0o750010
  | .claCll => 0o754000
  | .clsf ign => encodeIotName ign 0o0001
  | .clof ign => encodeIotName ign 0o0004
  | .clon ign => encodeIotName ign 0o0044
  | .rsf ign => encodeIotName ign 0o0101
  | .rcf ign => encodeIotName ign 0o0102
  | .rrb ign => encodeIotName ign 0o0112
  | .rsa ign => encodeIotName ign 0o0104
  | .rsb ign => encodeIotName ign 0o0144
  | .tsf ign => encodeIotName ign 0o0401
  | .tcf ign => encodeIotName ign 0o0402
  | .tls ign => encodeIotName ign 0o0406

/-- What the decoder reads from an instruction whose low nbits bits are those of w and whose other bits are 0. Every
instruction is one 18-bit word (R80), so a number of more than 18 bits is no instruction. -/
def decodeTableWord (nbits w : Nat) : Option Instr :=
  let v := w % 2 ^ nbits
  if v < 2 ^ 18 then some (decode (BitVec.ofNat 18 v)) else none

end Sys2Proof
end

