-- ==== Sys2Proof/Machine/Operate.lean ====
section
/-! DEFINITION. The operate group: OPR and its 23 named words (spec 43_operate.md R175 to R198). -/

namespace Sys2Proof.Machine

/-- What an operate word is refused for, if anything (R89, R176). -/
def oprRefusal (b : OprBits) : Option Refusal :=
  if b.bit13 then some .oprBit13
  else if b.ral && b.rar then some .oprRalWithRar
  else if b.oas && (b.ral || b.rar) then some .oprOasWithRotate
  else none

/-- The clears of stage one on (Link, AC): CLL and CLA (R177). -/
def oprClear (b : OprBits) (v : Bool × Word) : Bool × Word :=
  (if b.cll then false else v.1, if b.cla then 0 else v.2)

/-- The complements of stage one on (Link, AC): CML and CMA (R177). -/
def oprComplement (b : OprBits) (v : Bool × Word) : Bool × Word :=
  (if b.cml then !v.1 else v.1, if b.cma then ~~~v.2 else v.2)

/-- Stage one on (Link, AC): by the spec the clears, then the complements (R177; the order is G10). -/
def oprStage1 (o : StageOrder) (b : OprBits) (v : Bool × Word) : Bool × Word :=
  match o with
  | .clearsFirst => oprComplement b (oprClear b v)
  | .complementsFirst => oprClear b (oprComplement b v)

/-- The rotate of stage two on (Link, AC), by two places when AROT is set (R110, R179). -/
def oprRotate (b : OprBits) (link : Bool) (ac : Word) : Bool × Word :=
  let r :=
    if b.ral then shift (if b.arot then .rtl else .ral) ac link
    else if b.rar then shift (if b.arot then .rtr else .rar) ac link
    else (ac, link)
  (r.2, r.1)

/-- Stage two on (Link, AC): the data switches ORed in, or a rotate (R179). -/
def oprStage2 (b : OprBits) (switches : Word) (link : Bool) (ac : Word) : Bool × Word :=
  oprRotate b link (if b.oas then ac ||| switches else ac)

/-- The skip of an operate word, on the (Link, AC) of the chosen sample point (R178, R180). -/
def oprSkip (b : OprBits) (sample : Bool × Word) : Bool :=
  skipTest (zeroOf sample.2) (signOf sample.2) sample.1 b.sza b.sma b.snl b.pol

/-- The (Link, AC) the skip test reads (R178). -/
def oprSample (p : SkipSample) (before one two : Bool × Word) : Bool × Word :=
  match p with
  | .beforeStage1 => before
  | .afterStage1 => one
  | .afterStage2 => two

/-- The effect of an operate word that is not refused (R176, in the order of R182). -/
def oprEffect (b : OprBits) (s : State) : State :=
  let one := oprStage1 s.params.family.stageOrder b (s.link, s.ac)
  let two := oprStage2 b s.dataSwitches one.1 one.2
  let t := { s with link := two.1, ac := two.2 }
  let u := t.skipIf (oprSkip b (oprSample s.params.oprSkipSample (s.link, s.ac) one two))
  if b.hlt then u.halt .hlt else u

/-- The rule of the whole group (R176). -/
def oprGroup (b : OprBits) (s : State) : Result :=
  match oprRefusal b with
  | some r => .refused r
  | none => .next (oprEffect b s)

/-- OPR (R176). -/
def execOpr (b : OprBits) (s : State) : Result := oprGroup b s
/-- NOP, no bit set (R183). -/
def execNop (s : State) : Result := oprGroup {} s
/-- CMA (R185). -/
def execCma (s : State) : Result := oprGroup { cma := true } s
/-- CML (R187). -/
def execCml (s : State) : Result := oprGroup { cml := true } s
/-- OAS (R192). -/
def execOas (s : State) : Result := oprGroup { oas := true } s
/-- RAL (R188). -/
def execRal (s : State) : Result := oprGroup { ral := true } s
/-- RAR (R189). -/
def execRar (s : State) : Result := oprGroup { rar := true } s
/-- HLT (R181, R197). -/
def execHlt (s : State) : Result := oprGroup { hlt := true } s
/-- SMA (R193). -/
def execSma (s : State) : Result := oprGroup { sma := true } s
/-- SZA (R194). -/
def execSza (s : State) : Result := oprGroup { sza := true } s
/-- SNL (R195). -/
def execSnl (s : State) : Result := oprGroup { snl := true } s
/-- SKP (R196). -/
def execSkp (s : State) : Result := oprGroup { pol := true } s
/-- SPA (R196). -/
def execSpa (s : State) : Result := oprGroup { pol := true, sma := true } s
/-- SNA (R196). -/
def execSna (s : State) : Result := oprGroup { pol := true, sza := true } s
/-- SZL (R196). -/
def execSzl (s : State) : Result := oprGroup { pol := true, snl := true } s
/-- RTL (R190). -/
def execRtl (s : State) : Result := oprGroup { arot := true, ral := true } s
/-- RTR (R191). -/
def execRtr (s : State) : Result := oprGroup { arot := true, rar := true } s
/-- CLL (R186). -/
def execCll (s : State) : Result := oprGroup { cll := true } s
/-- STL = CLL!CML (R198). -/
def execStl (s : State) : Result := oprGroup { cll := true, cml := true } s
/-- CLA (R184). -/
def execCla (s : State) : Result := oprGroup { cla := true } s
/-- CLC = CLA!CMA (R198). -/
def execClc (s : State) : Result := oprGroup { cla := true, cma := true } s
/-- LAS = CLA!OAS (R198). -/
def execLas (s : State) : Result := oprGroup { cla := true, oas := true } s
/-- GLK = CLA!RAL (R198). -/
def execGlk (s : State) : Result := oprGroup { cla := true, ral := true } s
/-- CLA!CLL (R198). -/
def execClaCll (s : State) : Result := oprGroup { cla := true, cll := true } s

end Sys2Proof.Machine
end

