-- ==== Sys2Proof/Machine/Execute.lean ====
section
/-! DEFINITION. XCT, which executes the word at its effective address as if it stood in its place (spec
42_control_transfer.md R166; 93_implementation_defined.md U18; log 10). -/

namespace Sys2Proof.Machine

/-- The bank of the direct address of a word that XCT executes. -/
def targetBank (choice : TargetBank) (pc ea : Addr) : BitVec 2 :=
  match choice with
  | .ofPc => bank pc
  | .ofEa => bank ea

/-- One link of an XCT: EA is computed, and the word there is loaded into IR, to be executed next with no fetch and no
increment of PC; its address field goes to MA in the bank of the current PC (R166; G4, log 42). -/
def State.xctLink (s : State) (ind : Bool) (y : BitVec 13) : State :=
  let t := s.resolve ind y
  let w := t.read t.ma
  { t with ir := w, ma := mkAddr (targetBank t.params.family.transfers.xctBank t.pc t.ma) (w.extractLsb' 0 13) }

/-- Whether an instruction is an XCT. -/
def isXct : Instr → Bool
  | .xct _ _ => true
  | _ => false

/-- Execution of an instruction, an XCT going on with its target by `again`. -/
def execWith (again : State → Result) (i : Instr) (s : State) : Result :=
  match i with
  | .cal low => Sys2Proof.Machine.execCal low s
  | .dac ind y => Sys2Proof.Machine.execDac ind y s
  | .jms ind y => Sys2Proof.Machine.execJms ind y s
  | .dzm ind y => Sys2Proof.Machine.execDzm ind y s
  | .lac ind y => Sys2Proof.Machine.execLac ind y s
  | .xor ind y => Sys2Proof.Machine.execXor ind y s
  | .add ind y => Sys2Proof.Machine.execAdd ind y s
  | .tad ind y => Sys2Proof.Machine.execTad ind y s
  | .xct ind y => again (s.xctLink ind y)
  | .isz ind y => Sys2Proof.Machine.execIsz ind y s
  | .and ind y => Sys2Proof.Machine.execAnd ind y s
  | .sad ind y => Sys2Proof.Machine.execSad ind y s
  | .jmp ind y => Sys2Proof.Machine.execJmp ind y s
  | .eae low => Sys2Proof.Machine.execEae low s
  | .iot ign b => Sys2Proof.Machine.execIot ign b s
  | .opr b => Sys2Proof.Machine.execOpr b s
  | .nop => Sys2Proof.Machine.execNop s
  | .cma => Sys2Proof.Machine.execCma s
  | .cml => Sys2Proof.Machine.execCml s
  | .oas => Sys2Proof.Machine.execOas s
  | .ral => Sys2Proof.Machine.execRal s
  | .rar => Sys2Proof.Machine.execRar s
  | .hlt => Sys2Proof.Machine.execHlt s
  | .sma => Sys2Proof.Machine.execSma s
  | .sza => Sys2Proof.Machine.execSza s
  | .snl => Sys2Proof.Machine.execSnl s
  | .skp => Sys2Proof.Machine.execSkp s
  | .spa => Sys2Proof.Machine.execSpa s
  | .sna => Sys2Proof.Machine.execSna s
  | .szl => Sys2Proof.Machine.execSzl s
  | .rtl => Sys2Proof.Machine.execRtl s
  | .rtr => Sys2Proof.Machine.execRtr s
  | .cll => Sys2Proof.Machine.execCll s
  | .stl => Sys2Proof.Machine.execStl s
  | .cla => Sys2Proof.Machine.execCla s
  | .clc => Sys2Proof.Machine.execClc s
  | .las => Sys2Proof.Machine.execLas s
  | .glk => Sys2Proof.Machine.execGlk s
  | .claCll => Sys2Proof.Machine.execClaCll s
  | .clsf ign => Sys2Proof.Machine.execClsf ign s
  | .clof ign => Sys2Proof.Machine.execClof ign s
  | .clon ign => Sys2Proof.Machine.execClon ign s
  | .rsf ign => Sys2Proof.Machine.execRsf ign s
  | .rcf ign => Sys2Proof.Machine.execRcf ign s
  | .rrb ign => Sys2Proof.Machine.execRrb ign s
  | .rsa ign => Sys2Proof.Machine.execRsa ign s
  | .rsb ign => Sys2Proof.Machine.execRsb ign s
  | .tsf ign => Sys2Proof.Machine.execTsf ign s
  | .tcf ign => Sys2Proof.Machine.execTcf ign s
  | .tls ign => Sys2Proof.Machine.execTls ign s

/-- Execution that follows a chain of at most n further XCT; a longer chain is left in progress, with its next word in IR,
for the machine's next step to go on with. -/
def execChain : Nat → Instr → State → Result
  | 0 => execWith (fun t => .next { t with xctChain := true })
  | n + 1 => execWith (fun t => execChain n (decodeWith t.params.family.layout t.ir) t)

/-- How many links of an XCT chain one step follows after the first (log 10). -/
def chainLinks : Nat := 64

/-- XCT: the instruction at EA is executed in its place (R166). -/
def execXct (ind : Bool) (y : BitVec 13) (s : State) : Result := execChain chainLinks (.xct ind y) s

end Sys2Proof.Machine
end

