-- ==== Sys2Proof/Machine/Dispatch.lean ====
section
/-! DEFINITION. The dispatch: one arm for each constructor of Instr. -/

namespace Sys2Proof.Machine

def exec (i : Instr) (s : State) : Host.Outcome State Fault Refusal :=
  match i with
  | .cal low => Sys2Proof.Machine.execCal low s
  | .dac ind y => Sys2Proof.Machine.execDac ind y s
  | .jms ind y => Sys2Proof.Machine.execJms ind y s
  | .dzm ind y => Sys2Proof.Machine.execDzm ind y s
  | .lac ind y => Sys2Proof.Machine.execLac ind y s
  | .xor ind y => Sys2Proof.Machine.execXor ind y s
  | .add ind y => Sys2Proof.Machine.execAdd ind y s
  | .tad ind y => Sys2Proof.Machine.execTad ind y s
  | .xct ind y => Sys2Proof.Machine.execXct ind y s
  | .isz ind y => Sys2Proof.Machine.execIsz ind y s
  | .and ind y => Sys2Proof.Machine.execAnd ind y s
  | .sad ind y => Sys2Proof.Machine.execSad ind y s
  | .jmp ind y => Sys2Proof.Machine.execJmp ind y s
  | .eae low => Sys2Proof.Machine.execEae low s
  | .iot ign b => Sys2Proof.Machine.execIot ign b s
  | .opr b => Sys2Proof.Machine.execOpr b s
  | .nop => Sys2Proof.Machine.execNop s
  | .cma => Sys2Proof.Machine.execCma s
  | .cml => Sys2Proof.Machine.execCml s
  | .oas => Sys2Proof.Machine.execOas s
  | .ral => Sys2Proof.Machine.execRal s
  | .rar => Sys2Proof.Machine.execRar s
  | .hlt => Sys2Proof.Machine.execHlt s
  | .sma => Sys2Proof.Machine.execSma s
  | .sza => Sys2Proof.Machine.execSza s
  | .snl => Sys2Proof.Machine.execSnl s
  | .skp => Sys2Proof.Machine.execSkp s
  | .spa => Sys2Proof.Machine.execSpa s
  | .sna => Sys2Proof.Machine.execSna s
  | .szl => Sys2Proof.Machine.execSzl s
  | .rtl => Sys2Proof.Machine.execRtl s
  | .rtr => Sys2Proof.Machine.execRtr s
  | .cll => Sys2Proof.Machine.execCll s
  | .stl => Sys2Proof.Machine.execStl s
  | .cla => Sys2Proof.Machine.execCla s
  | .clc => Sys2Proof.Machine.execClc s
  | .las => Sys2Proof.Machine.execLas s
  | .glk => Sys2Proof.Machine.execGlk s
  | .claCll => Sys2Proof.Machine.execClaCll s
  | .clsf ign => Sys2Proof.Machine.execClsf ign s
  | .clof ign => Sys2Proof.Machine.execClof ign s
  | .clon ign => Sys2Proof.Machine.execClon ign s
  | .rsf ign => Sys2Proof.Machine.execRsf ign s
  | .rcf ign => Sys2Proof.Machine.execRcf ign s
  | .rrb ign => Sys2Proof.Machine.execRrb ign s
  | .rsa ign => Sys2Proof.Machine.execRsa ign s
  | .rsb ign => Sys2Proof.Machine.execRsb ign s
  | .tsf ign => Sys2Proof.Machine.execTsf ign s
  | .tcf ign => Sys2Proof.Machine.execTcf ign s
  | .tls ign => Sys2Proof.Machine.execTls ign s

end Sys2Proof.Machine
end

