-- ==== Sys2Proof/Machine/Cycle.lean ====
section
/-! DEFINITION. The instruction step: fetch, execution, the passing of cycles, and what is unspecified at its end (spec
40_engine_bus_alu.md R131; 10_state.md R34; 44 R209; 70 R293). -/

namespace Sys2Proof.Machine

/-- How many cycles the instruction takes: any n >= 1 (R293; log 7). -/
def State.cyclesDrawn (s : State) : Nat := Config.cycleDraw s.draws + 1

/-- In which of its cycles the coprocessor acts: any c with 1 <= c <= n (R209; log 7). -/
def State.actingCycle (s : State) : Nat := Config.actDraw s.draws % s.cyclesDrawn + 1

/-- The registers an instruction leaves unspecified, and the control-word slots, take free values (R34, R37; log 8, 9). -/
def State.settle (s : State) : State :=
  { s with
    mb := Config.freeMb s.draws
    ob := Config.freeOb s.draws
    zero := Config.freeZero s.draws
    sign := Config.freeSign s.draws
    skip := Config.freeSkip s.draws
    currentWord := Config.freeCurrent s.draws
    nextWord := Config.freeNext s.draws
    draws := s.draws + 1 }

/-- The instruction in IR, already fetched, runs: c cycles pass, it takes effect, and the other n - c cycles pass (R131,
R209). -/
def State.runLoaded (s : State) : Result :=
  andThen (s.advance s.actingCycle) fun t =>
    andThen (exec (decodeWith t.params.family.layout t.ir) t) fun u =>
      andThen (u.advance (s.cyclesDrawn - s.actingCycle)) fun v => .next v.settle

/-- One instruction step: fetch and the PC increment, then the instruction (R131). -/
def State.runInstruction (s : State) : Result := s.fetch.runLoaded

/-- A chain of XCT goes on with the word in IR, with no fetch, no increment and no look at the front panel (R166). -/
def State.resumeChain (s : State) : Result := State.runLoaded { s with xctChain := false }

end Sys2Proof.Machine
end

