-- ==== Sys2Proof/Machine/Panel.lean ====
section
/-! DEFINITION. The front panel as CORE sees it: the 4-bit code, the actions, await-neutral (spec 60_exceptions.md R263 to
R271; log 25). -/

namespace Sys2Proof.Machine

/-- The front-panel actions of R264. -/
inductive PanelAction where
  | neutral | haltStep | continue | goTo | examine | examineNext | deposit | depositNext | readIn | execute
  deriving DecidableEq, Repr

/-- The code of an action under FP_CODE; 0 is neutral (R44, R264). -/
def PanelAction.code (k : PanelCodes) : PanelAction → BitVec 4
  | .neutral => 0
  | .haltStep => k.haltStep
  | .continue => k.cont
  | .goTo => k.goTo
  | .examine => k.examine
  | .examineNext => k.examineNext
  | .deposit => k.deposit
  | .depositNext => k.depositNext
  | .readIn => k.readIn
  | .execute => k.execute

/-- The actions in the source's order (R44, R264). -/
def PanelAction.all : List PanelAction :=
  [.neutral, .haltStep, .continue, .goTo, .examine, .examineNext, .deposit, .depositNext, .readIn, .execute]

/-- The action of a code under FP_CODE: the first in the source's order that has it; an unused code is treated as neutral
(R264). -/
def panelAction (k : PanelCodes) (code : BitVec 4) : PanelAction :=
  (PanelAction.all.find? fun a => code = a.code k).getD .neutral

/-- The code when several counters are non-zero: the lowest-numbered action's (R264). -/
def panelCodeOf (k : PanelCodes) (pressed : List PanelAction) : BitVec 4 :=
  ((List.range 16).map (BitVec.ofNat 4)).find? (fun c => c != 0 && pressed.contains (panelAction k c)) |>.getD 0

/-- The action of the front-panel code the engine sees. -/
def State.panelAction (s : State) : PanelAction := Machine.panelAction s.params.fpCode s.panelCode

/-- Whether the code ends the await-neutral wait: 0, or an unused code, "treated as neutral" (R264, R265). Read-in is
neutral only "after await-neutral" (R271), so it does not end the wait. -/
def State.neutralCode (s : State) : Bool := decide (s.panelAction = .neutral)

/-- After a front-panel action, or while the engine waits in the front-panel steps, OB and the flags derived from it and
the control-word slots take free values; MB is kept, since the panel shows it (R34, R267; log 8). -/
def State.settlePanel (s : State) : State :=
  { s with
    ob := Config.freeOb s.draws
    zero := Config.freeZero s.draws
    sign := Config.freeSign s.draws
    skip := Config.freeSkip s.draws
    currentWord := Config.freeCurrent s.draws
    nextWord := Config.freeNext s.draws
    draws := s.draws + 1 }

/-- The engine stays in the front-panel steps for one cycle, in which only the devices tick (R131, R257, R263). -/
def State.idleCycle (s : State) : Result := andThen (s.advance 1) fun t => .next t.settlePanel

/-- The "await-neutral" step: it ends when the code is neutral again (R265). -/
def State.awaitCycle (s : State) : Result :=
  andThen s.idleCycle fun t => .next (if s.neutralCode then { t with awaitNeutral := false } else t)

/-- An action that is no instruction: its cycles pass and the engine goes to await-neutral (R265). -/
def State.panelEffect (s : State) (effect : State → State) : Result :=
  andThen (s.advance s.cyclesDrawn) fun t => .next { (effect t).settlePanel with awaitNeutral := true }

/-- An action that runs an instruction; the engine then goes to await-neutral (R265, R269, R270). -/
def State.panelRun (s : State) (run : State → Result) : Result :=
  andThen (run s) fun t => .next { t with awaitNeutral := true }

/-- MB is unspecified after an action that does not load it (R34). -/
def State.freeMb (s : State) : State := { s with mb := Config.freeMb s.draws }

/-- Go-to (R266). -/
def State.goTo (s : State) : State := { s.freeMb with pc := s.addressSwitches, run := .running }

/-- Continue (R269). -/
def State.continue (s : State) : State := { s.freeMb with run := .running }

/-- Halt-step while running (R263, R269). -/
def State.haltStep (s : State) : State := s.freeMb.halt .haltStep

/-- Examine at an address: the word is shown in MB (R267). -/
def State.examine (s : State) (a : Addr) : State := { s with ma := a, mb := s.read a }

/-- Deposit the data switches at an address (R268). -/
def State.deposit (s : State) (a : Addr) : State := { s.freeMb with ma := a, mem := s.mem.write a s.dataSwitches }

/-- Single step: exactly one instruction step, and HALTED again (R269). -/
def State.singleStep (s : State) : Result :=
  andThen ({ s with run := .running }.runInstruction) fun t =>
    .next (if t.run = .running then t.halt .haltStep else t)

/-- Execute: the word in the data switches, with no fetch and no increment; RUN stays HALTED (R270). -/
def State.executeSwitches (s : State) : Result := (s.loadIr s.dataSwitches).runLoaded

/-- The engine in the front-panel steps, HALTED: the code's action is performed once (R263). -/
def State.haltedStep (s : State) : Result :=
  match s.panelAction with
  | .neutral | .readIn => s.idleCycle
  | .haltStep => s.panelRun State.singleStep
  | .continue => s.panelEffect State.continue
  | .goTo => s.panelEffect State.goTo
  | .examine => s.panelEffect fun t => t.examine t.addressSwitches
  | .examineNext => s.panelEffect fun t => t.examine (t.ma + 1)
  | .deposit => s.panelEffect fun t => t.deposit t.addressSwitches
  | .depositNext => s.panelEffect fun t => t.deposit (t.ma + 1)
  | .execute => s.panelRun State.executeSwitches

/-- RUNNING: halt-step halts before the next fetch, and any other code is ignored (R263). -/
def State.runningStep (s : State) : Result :=
  if s.panelAction = .haltStep then s.panelEffect State.haltStep else s.runInstruction

end Sys2Proof.Machine
end

