-- ==== Sys2Proof/Machine/Step.lean ====
section
/-! DEFINITION. One step of the machine (spec 40_engine_bus_alu.md R131; 60_exceptions.md R255, R263). -/

namespace Sys2Proof.Machine

/-- One step: an instruction step when RUNNING, a front-panel cycle or action when HALTED or awaiting neutral. An
interrupt request has no described entry and is refused (R255). -/
def step (s : State) : Host.Outcome State Fault Refusal :=
  if s.irq then .refused .interruptEntry
  else if s.xctChain then s.resumeChain
  else if s.awaitNeutral then s.awaitCycle
  else if s.run = .running then s.runningStep
  else s.haltedStep

/-- s with one instruction stored at PC and made the next thing the machine does: RUNNING, with no XCT chain in progress and
the front panel neutral (log 3). Every instruction is one word (R80). -/
def State.withFetchWord (s : State) (nbits w : Nat) : State :=
  { s with
    mem := s.mem.write s.pc (BitVec.ofNat 18 (w % 2 ^ nbits))
    run := .running
    awaitNeutral := false
    xctChain := false
    panelCode := 0 }

end Sys2Proof.Machine
end

