-- ==== Sys2Proof/Machine/HostOps.lean ====
section
/-! DEFINITION. What the host may do to the machine between two steps (spec 60_exceptions.md R262; 20_memory.md R72;
44_iot_coprocessor_devices.md R229; log 26). -/

namespace Sys2Proof.Machine

/-- The host's writes. -/
inductive HostOp where
  /-- Bulk-write core memory (R72, R262). -/
  | loadCore (image : List (Addr × Word))
  /-- Load a tape (R229). -/
  | loadTape (bytes : List Byte)
  /-- Toggle the data switches (R43). -/
  | setDataSwitches (v : Word)
  /-- Toggle the address switches (R43). -/
  | setAddressSwitches (a : Addr)
  /-- Change the front-panel code CORE sees (R44, R263). -/
  | setPanelCode (code : BitVec 4)
  deriving DecidableEq, Repr

/-- The machine after a write of the host. -/
def State.host (s : State) : HostOp → State
  | .loadCore image => { s with mem := s.mem.load image }
  | .loadTape bytes => { s with rdr := { s.rdr with tape := bytes, ptr := 0 } }
  | .setDataSwitches v => { s with dataSwitches := v }
  | .setAddressSwitches a => { s with addressSwitches := a }
  | .setPanelCode code => { s with panelCode := code }

end Sys2Proof.Machine
end

