-- ==== Sys2Proof/Machine/Micro.lean ====
section
/-! DEFINITION. Level M: the bus, propagate, latch and one micro cycle, over a Decode Table of unknown contents (spec
40_engine_bus_alu.md R100 to R104, R114 to R124; 44 R201, R202, R236). The spec says Level M cannot be executed and that a
model is built at Level I (00_scope.md R6): step uses none of this file (log 32). -/

namespace Sys2Proof.Machine

/-! The Bus Model (R102 to R104) -/

/-- Asserts a value; asserting a bus twice is a diagnostic, and the second value is discarded (R102). -/
def busAssert {α : Type} (name : BusName) (bus : Option α) (v : α) : Option α × List Diag :=
  match bus with
  | none => (some v, [])
  | some u => (some u, [.multipleAssert name])

/-- Reads a bus; a floating bus is a diagnostic, and the result is 0 (R103). -/
def busRead {n : Nat} (name : BusName) (bus : Option (BitVec n)) : BitVec n × List Diag :=
  match bus with
  | some u => (u, [])
  | none => (0, [.floatingBus name])

/-- The machine in the middle of Level M: the buses of the last propagate and the next-Link its ALU gave (R116, R123). -/
structure Micro where
  machine : State
  data : Option Word
  address : Option Addr
  nextLink : Bool
  deriving DecidableEq, Repr

/-! The microcode input word (R39) -/

/-- What the microcode input word is built from (R116). -/
def State.engineView (s : State) : EngineView where
  mode := s.currentWord.nextMode
  step := s.currentWord.nextStep
  ir := s.ir
  zero := s.zero
  skip := s.skip
  maai := s.maai
  panelCode := s.panelCode
  ack := s.iocp.ack
  iotSkip := s.iocp.skip

/-- Four flags as bits, the first highest. -/
def fourBits (a b c d : Bool) : BitVec 4 := BitVec.ofBool a ++ BitVec.ofBool b ++ BitVec.ofBool c ++ BitVec.ofBool d

/-- The OPR bits that choose the action of a stage: CLA, CLL, CMA and CML in stage one, OAS, RAR, RAL, AROT and HLT in stage
two (R39, R175). -/
def stageAction (secondStage : Bool) (b : OprBits) : BitVec 5 :=
  if secondStage then fourBits b.oas b.rar b.ral b.arot ++ BitVec.ofBool b.hlt
  else fourBits b.cla b.cll b.cma b.cml ++ BitVec.ofBool false

/-- What each mode's nine bits carry (R39). DESIGN CHOICE (log 44): the widths of the step, and that a SERVICE step carries
either the panel code or the flags and the coprocessor's status, by its range. -/
def EngineView.input (v : EngineView) (l : Layout) : MicroInput :=
  match v.mode with
  | .service =>
    let step := BitVec.ofNat 5 v.step
    .service step (if Config.stepReadsPanel step then v.panelCode else fourBits v.zero v.skip v.ack v.iotSkip)
  | .instruction =>
    .instruction (v.ir.extractLsb' l.op 4) (BitVec.ofNat 3 v.step) (v.ir.getLsbD l.ind) v.maai
  | .operate =>
    let secondStage := decide (v.step % 2 = 1)
    .operate secondStage (stageAction secondStage (OprBits.ofWord v.ir l.opr))
  | .unnamed => .unnamed (Config.unnamedFields v)

/-- The mode of a microcode input. -/
def MicroInput.mode : MicroInput → DecodeMode
  | .service _ _ => .service
  | .instruction _ _ _ _ => .instruction
  | .operate _ _ => .operate
  | .unnamed _ => .unnamed

/-- The nine mode-specific bits, side by side, before they are packed. -/
def MicroInput.fields : MicroInput → BitVec 9
  | .service step status => step ++ status
  | .instruction opcode step indirect maai => opcode ++ step ++ BitVec.ofBool indirect ++ BitVec.ofBool maai
  | .operate secondStage action => (0 : BitVec 3) ++ BitVec.ofBool secondStage ++ action
  | .unnamed fields => fields

/-- The modes in some order; their codes are Config.modeCode's (R38). -/
def modeNumber : DecodeMode → BitVec 2
  | .service => 0
  | .instruction => 1
  | .operate => 2
  | .unnamed => 3

/-- The microcode input word: 2 bits of mode and 9 mode-specific bits, each packed in an unknown way that loses nothing (R39;
log 44). -/
def MicroInput.word (i : MicroInput) : BitVec 11 :=
  Config.modeCode (modeNumber i.mode) ++ Config.fieldPacking i.mode i.fields

/-- The word that propagate gives to the Decode Table (R116). -/
def State.microWord (s : State) : BitVec 11 := (s.engineView.input s.params.family.layout).word

/-! The buses -/

/-- The address propagate asserts: PC or MA, with optional zero-page masking; none with the enable clear (R117). -/
def State.busAddress (s : State) : Option Addr :=
  let c := s.currentWord.bus
  let a := if c.selectMa then s.ma else s.pc
  if c.addressEnable then some (if c.zeroPage then zeroPage a else a) else none

/-- The value propagate asserts on the data bus, by its source (R118); a source that reads the address bus reads it by
R103. -/
def State.busData (s : State) : Word × List Diag :=
  let c := s.currentWord.bus
  let a := busRead .address s.busAddress
  match c.source with
  | .switches => (s.dataSwitches, [])
  | .ac => (s.ac, [])
  | .step => (s.stepReg, [])
  | .mq => (s.mq, [])
  | .crossbar => (addrWord (a.1 + 1), a.2)
  | .alu => ((alu s.currentWord.alu s.ob s.mb s.link).result, [])
  | .core => (s.read a.1, a.2)
  | .constant => (Config.smallConstant c.constant, [])

/-- Propagate: floats the buses, forms the next control word from the current one and the live flags, runs the ALU and
asserts the two buses; it changes no register (R116). -/
def Micro.propagate (m : Micro) : Micro :=
  let s := m.machine
  let d := s.busData
  { machine :=
      { s with
        nextWord := Config.decodeTable s.microWord
        diags := s.diags ++ d.2 }
    data := (busAssert .data none d.1).1
    address := s.busAddress.bind fun a => (busAssert .address none a).1
    nextLink := (alu s.currentWord.alu s.ob s.mb s.link).nextLink }

/-- The registers whose latch enable is set copy the data bus; MA and PC by the addressing rule (R119, R120). -/
def State.latchRegisters (s : State) (d : Word) : State :=
  let c := s.currentWord
  { s with
    ac := if c.latch.ac then d else s.ac
    mb := if c.latch.mb then d else s.mb
    mq := if c.latch.mq then d else s.mq
    pc := if c.latch.pc then latchAddr c.bus.extended s.pc d else s.pc
    ma := if c.latch.ma then latchAddr c.bus.extended s.ma d else s.ma
    ir := if c.latch.ir then d else s.ir
    stepReg := if c.latch.step then d &&& stepMask s.params.stepWidth else s.stepReg }

/-- The core-write enable stores the data bus at the address on the address bus (R122). -/
def State.latchCore (s : State) (a : Addr) (d : Word) : State :=
  if s.currentWord.latch.coreWrite then s.write a d else s

/-- Skip is recomputed from IR as just latched and the flags of before this latch (R119, R121). -/
def State.latchSkip (s : State) : State := { s with skip := skipOfWord s.ir s.zero s.sign s.link }

/-- The OB latch, with Zero, Sign and the Link (R123). -/
def State.latchObLink (s : State) (d : Word) (nextLink : Bool) : State :=
  if s.currentWord.alu.obLatch then { s.latchOb d with link := nextLink } else s

/-- Whether a latch of this control word reads the data bus. -/
def ControlWord.readsData (c : ControlWord) : Bool :=
  c.latch.ac || c.latch.mb || c.latch.mq || c.latch.pc || c.latch.ma || c.latch.ir || c.latch.step
    || c.latch.coreWrite || c.alu.obLatch

/-- Latch, in the source's order, from the buses of the last propagate; `current` takes `next` last (R119, R124). The word
that an acknowledge carries is taken into AC (R201). DESIGN CHOICE (log 39): in the first latch after the acknowledge, past
the register latches, and past both buses, since which bus it travels on is not in the source. -/
def Micro.latch (m : Micro) : Micro :=
  let c := m.machine.currentWord
  let d := busRead .data m.data
  let a := busRead .address m.address
  let events := (if c.readsData then d.2 else []) ++ (if c.latch.coreWrite then a.2 else [])
  let s := ((((m.machine.latchRegisters d.1).latchCore a.1 d.1).latchSkip).latchObLink d.1 m.nextLink).takeWriteBack
  { m with machine := { s with diags := s.diags ++ events, currentWord := s.nextWord } }

/-- One clock of the coprocessor: a rising request is seen, then carried out and acknowledged, and the handshake comes to
rest when the request is dropped (R201, R202, R208). How many clocks the handshake takes is not in the source (R201,
91_not_in_source.md N28). DESIGN CHOICE (log 39): two, one that sees the request and sets busy, and the next, which performs
the pulses and acknowledges. -/
def State.iocpClock (s : State) (request : Bool) : State :=
  if s.iocp.busy then
    let b := IotBits.ofWord s.ir s.params.family.layout.iot
    s.iocpPerform b.dev b.sub b.pulse
  else if request && !s.iocp.reqPrev then s.iocpRequest
  else if request then s
  else { s with iocp := {} }

/-- Whether the engine reports JMPI_INTDET in this cycle. An indirect JMP asserts it and nothing else does (R46, R163, D37);
R36 names no control-word signal for it, and in which of the JMP's cycles it is reported is not in the source (N1). DESIGN
CHOICE (log 43): it is reported in the cycles an unknown function of the engine's step, mode and status selects. -/
def State.jmpiReported (s : State) : Bool :=
  match decodeWith s.params.family.layout s.ir with
  | .jmp true _ => Config.jmpiIntdet s.engineView
  | _ => false

/-- The clock sees the signal and clears its flag (R236). DESIGN CHOICE (log 43): at the end of the cycle that reports it. -/
def Micro.signalClock (m : Micro) : Micro :=
  if m.machine.jmpiReported then { m with machine := m.machine.jmpiIntdet } else m

/-- One cycle of the hardware: device ticks and arbiter, coprocessor clock, latch, propagate (R101), and JMPI_INTDET (R236;
log 43). A violation of the bus discipline is logged and is not fatal (R102 to R104). -/
def Micro.clock (m : Micro) : Host.Outcome Micro Fault Refusal :=
  match m.machine.cycle with
  | .next s => .next ({ m with machine := s.iocpClock s.currentWord.misc.request }.latch.propagate.signalClock)
  | .fault r => .fault r
  | .refused r => .refused r

/-- One cycle of the model: the hardware's, but a violation of the bus discipline, in this cycle or logged before it, is the
fault busProtocol: "each bus must be driven by exactly one source per cycle, and every read must follow an assert within the
same cycle" (R104; 93_implementation_defined.md U1). -/
def Micro.cycle (m : Micro) : Host.Outcome Micro Fault Refusal :=
  match m.clock with
  | .next t =>
    match t.machine.protocolError with
    | some event => .fault (.busProtocol event)
    | none => .next t
  | .fault r => .fault r
  | .refused r => .refused r

/-- The start of Level M: propagate "is run once extra at initialization" (R101, R280). -/
def Micro.start (s : State) : Micro :=
  Micro.propagate { machine := s, data := none, address := none, nextLink := s.link }

end Sys2Proof.Machine
end

