-- ==== Sys2Proof/Machine/Reset.lean ====
section
/-! DEFINITION. Power-on and the SERVICE reset entry (spec 70_reset_and_hazards.md R280 to R283; 10_state.md R52). The
machine of Host/Core.lean starts at State.reset; here is every state the spec allows after reset. -/

namespace Sys2Proof.Machine

/-- What the spec leaves unspecified or takes as a parameter at power-on (R52, R280). -/
structure PowerOn where
  ac : Word
  mb : Word
  mq : Word
  pc : Addr
  ma : Addr
  ir : Word
  ob : Word
  link : Bool
  zero : Bool
  sign : Bool
  skip : Bool
  stepReg : Word
  params : Params
  bootImage : List (Addr × Word)
  rdrBuf : Word
  rdrFlag : Bool
  ttyBuf : Byte
  ttyFlag : Bool
  rtcFlag : Bool
  dataSwitches : Word
  addressSwitches : Addr
  deriving DecidableEq, Repr

/-- The machine at power-on: unspecified registers, BOOT_IMAGE in core, devices, coprocessor and arbiter as R52 says, the
SERVICE reset-entry word in `current` (R280). -/
def PowerOn.state (p : PowerOn) : State where
  ac := p.ac
  mb := p.mb
  mq := p.mq
  pc := p.pc
  ma := p.ma
  ir := p.ir
  ob := p.ob
  link := p.link
  zero := p.zero
  sign := p.sign
  skip := p.skip
  stepReg := p.stepReg &&& stepMask p.params.stepWidth
  currentWord := Config.resetEntryWord
  nextWord := Config.firstNextWord
  params := p.params
  run := .running
  awaitNeutral := false
  xctChain := false
  mem := Memory.load [] p.bootImage
  dataSwitches := p.dataSwitches
  addressSwitches := p.addressSwitches
  panelCode := 0
  ion := false
  iocp := {}
  rdr := { tape := [], ptr := 0, mode := .null, delay := 0, buf := p.rdrBuf, flag := p.rdrFlag }
  tty := { flag := p.ttyFlag, delay := 0, buf := p.ttyBuf }
  rtc := { count := 0, enable := false, flag := p.rtcFlag, drq := false }
  drq := { req := 0, grant := 0, outstanding := false }
  sink := []
  diags := []
  draws := 0

/-- The SERVICE reset entry: AC, MQ, STEP, PC and MA are cleared, PC and MA in all 15 bits, and nothing else (R281). -/
def State.resetEntry (s : State) : State := { s with ac := 0, mq := 0, stepReg := 0, pc := 0, ma := 0 }

/-- The power-on choice State.reset makes (log 2, 4, 5, 6, 26). -/
def PowerOn.chosen : PowerOn where
  ac := 0
  mb := 0
  mq := 0
  pc := 0
  ma := 0
  ir := 0
  ob := 0
  link := false
  zero := false
  sign := false
  skip := false
  stepReg := 0
  params := Params.atReset
  bootImage := []
  rdrBuf := 0
  rdrFlag := Config.rdrFlagReset
  ttyBuf := 0
  ttyFlag := Config.ttyFlagReset
  rtcFlag := Config.rtcFlagReset
  dataSwitches := 0
  addressSwitches := 0

end Sys2Proof.Machine
end

