-- ==== Sys2Proof/Safety.lean ====
section
/-! DEFINITION. What claims are stated in: the end of a run, a fault of the program, and the invariant of the machine
(spec 70_reset_and_hazards.md R284; 42_control_transfer.md R168; 10_state.md R23, R33, R45 to R51). -/

namespace Sys2Proof.Machine

/-- A violation of the bus discipline is logged: a fault of the microcode, "not invalid emulated-program behavior" (R104; U1).
No step of Level I logs one. -/
def State.busFault (s : State) : Bool := s.protocolError.isSome

/-- An unimplemented opcode has been reached: a fault of the program (R168, R284; U2). DESIGN CHOICE (log 12): the fault is
read from the diagnostics, which no step erases, so that it outlives the halt: the panel may let the machine go on (R168),
and the run stays faulted. -/
def State.programFault (s : State) : Bool := s.diags.any isNotImplemented

/-- A fault is recorded: of the program (U2), or of the bus (U1). -/
def State.faulted (s : State) : Bool := s.programFault || s.busFault

/-- A proper end of a run: the machine is halted by HLT, at an instruction boundary with the front panel neutral (R284). A
state with a recorded fault is never final (93_implementation_defined.md, treatments; log 12). -/
def State.ended (s : State) : Bool :=
  decide (s.run = .halted .hlt) && decide (s.panelCode = 0) && !s.xctChain && !s.faulted

/-- The run from s ends after n steps in t: the first instruction boundary that is an end (R284). -/
def EndsAfter (n : Nat) (s t : State) : Prop :=
  core.run n s = .next t ∧ t.ended = true ∧ ∀ m < n, ∀ u, core.run m s = .next u → u.ended = false

/-- The final state of a run: "AC, Link, PC ..., core memory, the bytes emitted to the terminal sink in order, and the device
state" (R284). -/
structure FinalState where
  ac : Word
  link : Bool
  pc : Addr
  mem : Memory
  sink : List Byte
  rdr : Reader
  tty : Teleprinter
  rtc : Clock
  deriving DecidableEq, Repr

/-- What R284 observes of a state. -/
def State.final (s : State) : FinalState where
  ac := s.ac
  link := s.link
  pc := s.pc
  mem := s.mem
  sink := s.sink
  rdr := s.rdr
  tty := s.tty
  rtc := s.rtc

/-- The teleprinter between cycles: while it counts down its flag is 0, and it counts at most 300 (R231, R232). -/
def Teleprinter.Ok (t : Teleprinter) : Prop := t.delay ≤ printDelay ∧ (t.delay ≠ 0 → t.flag = false)

/-- The reader between cycles: the pointer is within the tape and the countdown within its framing's (R222, R224). -/
def Reader.Ok (r : Reader) : Prop := r.ptr ≤ r.tape.length ∧ r.delay ≤ readDelay r.mode

/-- The arbiter and the clock's request at rest: every grant, and so every request, is refused (R244). -/
def State.DrqIdle (s : State) : Prop :=
  s.drq.req = 0 ∧ s.drq.grant = 0 ∧ s.drq.outstanding = false ∧ s.rtc.drq = false

/-- The machine between two steps. -/
structure State.Inv (s : State) : Prop where
  /-- Memory is in its canonical form. -/
  mem : s.mem.wf = true
  /-- No instruction writes MQ or STEP (R23, R33). -/
  mq : s.mq = 0
  stepReg : s.stepReg = 0
  /-- ION has no writer (R45, R254). -/
  ion : s.ion = false
  /-- The coprocessor is at rest between instructions (R47, R201). -/
  iocp : s.iocp = {}
  rdr : s.rdr.Ok
  tty : s.tty.Ok
  /-- The clock's counter never rests above the threshold (R234). -/
  count : s.rtc.count ≤ s.params.rtcThreshold
  drq : s.DrqIdle

end Sys2Proof.Machine
end

