-- ==== Sys2Proof/Certificates/Slice0/Obligations.lean ====
section
/-! DEFINITION. The statements for the provers, from the spec's numbered rules. EA is the MA of `s.resolve ind y`, which the
meanings use; the three statements on effective addresses say what it is. -/

open Sys2Proof Sys2Proof.Machine

/-! ## Encoding (30_encoding.md) -/

/-- Decoding the word of a well-formed instruction gives it back, with every operand at every value (R81 to R87, R91). -/
def Obligations.DecodeOfEncodeIsIdentity : Prop :=
  ∀ i : Instr, i.wf = true → decode (encode i) = i

/-- Every 18-bit word is the word of the well-formed instruction it decodes to: "No word fails to decode" (R91). -/
def Obligations.EncodeOfDecodeIsIdentity : Prop :=
  ∀ w : Word, encode (decode w) = w ∧ (decode w).wf = true

/-- A few words written out from the spec's encodings decode to the instructions they stand for (R85 to R87). -/
def Obligations.SampleWordsDecode : Prop :=
  decode 0o200040 = .lac false 0o40 ∧ decode 0o220010 = .lac true 0o10 ∧ decode 0o117777 = .jms false 0o17777
    ∧ decode 0o640000 = .eae 0 ∧ decode 0 = .cal 0 ∧ decode 0o740010 = .ral ∧ decode 0o740700
      = .opr { sma := true, sza := true, snl := true } ∧ decode 0o730101 = .rsf 3
    ∧ decode 0o700103 = .iot 0 { dev := 1, pulse := 3 } ∧ decode 0o700406 = .tls 0

/-! ## The instruction step (40_engine_bus_alu.md) -/

/-- A step of a running machine, with no interrupt request, no chain in progress and no halt-step, is the fetch of the word
at PC, c cycles of the devices, exec of the word's instruction, read in the run's layout (the spec's at reset), the other
n - c cycles, and the free values (R131, R209). -/
def Obligations.StepRunsFetchedInstruction : Prop :=
  ∀ s : State, s.irq = false → s.xctChain = false → s.awaitNeutral = false → s.run = .running →
    s.panelAction ≠ .haltStep →
    1 ≤ s.actingCycle ∧ s.actingCycle ≤ s.cyclesDrawn ∧
    step s = andThen (s.fetch.advance s.actingCycle) fun t =>
      andThen (exec (decodeWith s.params.family.layout (s.read s.pc)) t) fun u =>
        andThen (u.advance (s.cyclesDrawn - s.actingCycle)) fun v => .next v.settle

/-- Fetch loads IR, OB and MB with the word at PC and MA with its address field in the bank of PC, and PC goes to inc(PC);
Zero and Sign follow OB, and nothing else changes (R126, R127). -/
def Obligations.FetchLoadsRegisters : Prop :=
  ∀ s : State, let w := s.mem.read s.pc
    s.fetch = { s with
      ir := w, ob := w, mb := w
      ma := BitVec.append (s.pc.extractLsb' 13 2) (w.extractLsb' 0 13)
      pc := if s.params.pcIncExtended then s.pc + 1
        else BitVec.append (s.pc.extractLsb' 13 2) (s.pc.extractLsb' 0 13 + 1)
      zero := decide (w = 0), sign := w.getLsbD 17 }

/-- A chain of XCT in progress goes on with the word in IR: no fetch, no increment, no look at the front panel (R166). R166
has the whole chain inside one instruction step; that a long chain is cut and goes on in the next step is the model's
(DESIGN CHOICE, log 10). -/
def Obligations.StepResumesXctChain : Prop :=
  ∀ s : State, s.irq = false → s.xctChain = true → step s = ({ s with xctChain := false } : State).runLoaded

/-- An interrupt request has no described entry and is refused (R255). -/
def Obligations.InterruptRequestIsRefused : Prop :=
  ∀ s : State, s.ion = true → s.rtc.flag = true → step s = .refused .interruptEntry

/-! ## Effective addresses (41_memory_reference.md R140, R141) -/

/-- A direct address is Y in the bank the instruction was fetched from; only MA changes (R140). -/
def Obligations.DirectAddressIsPageRelative : Prop :=
  ∀ (s : State) (y : BitVec 13),
    s.resolve false y = { s with ma := BitVec.append (s.ma.extractLsb' 13 2) y }
      ∧ (s.fetch.resolve false y).ma = BitVec.append (s.pc.extractLsb' 13 2) y

/-- An indirect reference whose direct address has its offset in the auto-index range increments the cell MA & 0177 and
uses the incremented value as the pointer: 15 bits of it with EXT, 13 bits in the bank of the direct address without (R141). -/
def Obligations.AutoIndexIncrementsItsCell : Prop :=
  ∀ (s : State) (y : BitVec 13), s.params.autoIndexLo ≤ y → y ≤ s.params.autoIndexHi →
    let d : Addr := BitVec.append (s.ma.extractLsb' 13 2) y
    let cell : Addr := d &&& 0o177
    let v := s.read cell + 1
    let t := s.resolve true y
    s.indexCell true y = some cell ∧ t.read cell = v ∧ (∀ a, a ≠ cell → t.read a = s.read a)
      ∧ t.ma = (if s.params.ext then v.extractLsb' 0 15
          else BitVec.append (s.ma.extractLsb' 13 2) (v.extractLsb' 0 13))
      ∧ t = { s with ma := t.ma, mb := t.mb, ob := t.ob, zero := t.zero, sign := t.sign, mem := t.mem }

/-- Any other indirect reference is one level of indirection through the direct address, and no word of core changes
(R141). -/
def Obligations.PlainIndirectionReadsPointer : Prop :=
  ∀ (s : State) (y : BitVec 13), ¬ (s.params.autoIndexLo ≤ y ∧ y ≤ s.params.autoIndexHi) →
    let d : Addr := BitVec.append (s.ma.extractLsb' 13 2) y
    let p := s.read d
    s.indexCell true y = none ∧ s.resolve true y = { s with
      mb := p
      ma := if s.params.ext then p.extractLsb' 0 15
        else BitVec.append (s.ma.extractLsb' 13 2) (p.extractLsb' 0 13) }

/-! ## Memory-reference instructions (41_memory_reference.md) -/

/-- LAC loads AC with the word at EA and changes no flag, and its word is 0200000 + I*020000 + Y; scenario A: `LAC 040` at
0 with 0123 in core[040] gives AC = 0123 and PC = 1 (D34; that the word itself is loaded is G4: the premise). -/
def Obligations.LacLoadsAc : Prop :=
  (∀ (s : State) (ind : Bool) (y : BitVec 13),
    (encode (.lac ind y)).toNat = 0o200000 + ind.toNat * 0o20000 + y.toNat ∧
    ∃ t, exec (.lac ind y) s = .next t
      ∧ (s.params.family.transfers = {} → t.ac = (s.resolve ind y).read (s.resolve ind y).ma)
      ∧ t.link = s.link ∧ t.pc = s.pc ∧ t.mem = (s.resolve ind y).mem) ∧
  ∀ s : State, s.params.family.transfers = {} → s.pc = 0 → s.read 0 = 0o200040 → s.read 0o40 = 0o123 →
    ∃ t, exec (decode s.fetch.ir) s.fetch = .next t ∧ t.ac = 0o123 ∧ t.pc = 1

/-- XOR and AND combine AC with the word at EA (the ALU's operations; their use by these opcodes is D34, G4: the premise). -/
def Obligations.XorAndCombineAc : Prop :=
  ∀ (s : State) (ind : Bool) (y : BitVec 13), s.params.family.transfers = {} → let m := (s.resolve ind y).read (s.resolve ind y).ma
    (∃ t, exec (.xor ind y) s = .next t ∧ t.ac = s.ac ^^^ m) ∧ ∃ t, exec (.and ind y) s = .next t ∧ t.ac = s.ac &&& m

/-- ADD is the one's-complement sum: the carry out of bit 17 is added back; the Link is set when both operands have one sign
and the result the other, and is never cleared (D26, D34; 90_conflicts.md C1; that opcode 6 is this sum is G4: the
premise). -/
def Obligations.AddIsOnesComplementWithStickyLink : Prop :=
  ∀ (s : State) (ind : Bool) (y : BitVec 13), s.params.family.transfers = {} →
    let m := (s.resolve ind y).read (s.resolve ind y).ma
    let sum := s.ac.toNat + m.toNat
    let r := sum % 2 ^ 18 + sum / 2 ^ 18
    ∃ t, exec (.add ind y) s = .next t ∧ t.ac.toNat = r
      ∧ (t.link = true ↔ s.link = true ∨
        (s.ac.getLsbD 17 = m.getLsbD 17 ∧ (BitVec.ofNat 18 r).getLsbD 17 ≠ s.ac.getLsbD 17))

/-- TAD is the 19-bit sum of Link : AC and the word at EA: AC takes bits 17:0 and the Link bit 18 (D26, D34; that
opcode 7 is this sum is G4: the premise). -/
def Obligations.TadIsNineteenBitSum : Prop :=
  ∀ (s : State) (ind : Bool) (y : BitVec 13), s.params.family.transfers = {} →
    let m := (s.resolve ind y).read (s.resolve ind y).ma
    ∃ t, exec (.tad ind y) s = .next t
      ∧ t.link.toNat * 2 ^ 18 + t.ac.toNat = (s.link.toNat * 2 ^ 18 + s.ac.toNat + m.toNat) % 2 ^ 19

/-- DAC stores AC at EA, and DZM stores 0, and AC is kept (D34; G4: the premise). -/
def Obligations.DacAndDzmStore : Prop :=
  ∀ (s : State) (ind : Bool) (y : BitVec 13), s.params.family.transfers = {} → let ea := (s.resolve ind y).ma
    (∃ t, exec (.dac ind y) s = .next t ∧ t.read ea = s.ac ∧ t.ac = s.ac) ∧
      ∃ t, exec (.dzm ind y) s = .next t ∧ t.read ea = 0 ∧ t.ac = s.ac

/-- ISZ adds 1 to the word at EA, without the Link, and skips exactly when it became 0; Zero and Sign reflect the word (D8,
D34, D36; G4: the premise). -/
def Obligations.IszIncrementsAndSkipsOnZero : Prop :=
  ∀ (s : State) (ind : Bool) (y : BitVec 13), s.params.family.transfers = {} →
    let ea := (s.resolve ind y).ma
    let v := (s.resolve ind y).read ea + 1
    ∃ t, exec (.isz ind y) s = .next t ∧ t.read ea = v ∧ t.pc = (if v = 0 then inc s.params s.pc else s.pc)
      ∧ t.ob = v ∧ t.zero = decide (v = 0) ∧ t.sign = v.getLsbD 17 ∧ t.link = s.link ∧ t.ac = s.ac

/-- SAD skips exactly when AC differs from the word at EA, and puts the difference in OB only (D34, D36; G4: the
premise). -/
def Obligations.SadSkipsWhenDifferent : Prop :=
  ∀ (s : State) (ind : Bool) (y : BitVec 13), s.params.family.transfers = {} →
    let m := (s.resolve ind y).read (s.resolve ind y).ma
    ∃ t, exec (.sad ind y) s = .next t ∧ t.pc = (if s.ac = m then s.pc else inc s.params s.pc)
      ∧ t.ob = s.ac ^^^ m ∧ t.ac = s.ac ∧ t.link = s.link

/-- The frame of LAC, XOR, AND, ADD, TAD and SAD, which store nothing: of core, only the auto-index cell of an indirect
reference changes; of the registers AC (not SAD), the Link (ADD and TAD only), PC, OB, Zero and Sign (SAD), and what the
effective address writes: MA, MB, OB, Zero, Sign (R141, R142). It holds for every choice of the transfers (G4). -/
def Obligations.LoadingInstructionsFrame : Prop :=
  ∀ (s t : State) (ind : Bool) (y : BitVec 13), let e := s.resolve ind y
    ((exec (.lac ind y) s = .next t ∨ exec (.xor ind y) s = .next t ∨ exec (.and ind y) s = .next t) →
      t = { s with ac := t.ac, ma := e.ma, mb := e.mb, ob := e.ob, zero := e.zero, sign := e.sign, mem := e.mem }
        ∧ ∀ a, s.indexCell ind y ≠ some a → t.read a = s.read a) ∧
    ((exec (.add ind y) s = .next t ∨ exec (.tad ind y) s = .next t) →
      t = { s with
        ac := t.ac, link := t.link, ma := e.ma, mb := e.mb, ob := e.ob, zero := e.zero, sign := e.sign, mem := e.mem }
        ∧ ∀ a, s.indexCell ind y ≠ some a → t.read a = s.read a) ∧
    (exec (.sad ind y) s = .next t →
      t = { s with pc := t.pc, ma := e.ma, mb := e.mb, ob := t.ob, zero := t.zero, sign := t.sign, mem := e.mem }
        ∧ ∀ a, s.indexCell ind y ≠ some a → t.read a = s.read a)

/-- The frame of DAC, DZM, ISZ and JMS, which store one word at EA: of core, only EA and the auto-index cell change; of the
registers, what the effective address writes, PC for ISZ and JMS, and OB, Zero, Sign for ISZ, with MB for JMS (R142,
R161). It holds for every choice of the transfers (G4). -/
def Obligations.StoringInstructionsFrame : Prop :=
  ∀ (s t : State) (ind : Bool) (y : BitVec 13), let e := s.resolve ind y
    ((exec (.dac ind y) s = .next t ∨ exec (.dzm ind y) s = .next t) →
      t = { s with ma := e.ma, mb := e.mb, ob := e.ob, zero := e.zero, sign := e.sign, mem := t.mem }
        ∧ ∀ a, s.indexCell ind y ≠ some a → a ≠ e.ma → t.read a = s.read a) ∧
    ((exec (.isz ind y) s = .next t) →
      t = { s with pc := t.pc, ma := e.ma, mb := e.mb, ob := t.ob, zero := t.zero, sign := t.sign, mem := t.mem }
        ∧ ∀ a, s.indexCell ind y ≠ some a → a ≠ e.ma → t.read a = s.read a) ∧
    (exec (.jms ind y) s = .next t →
      t = { s with pc := t.pc, ma := e.ma, mb := t.mb, ob := t.ob, zero := t.zero, sign := t.sign, mem := t.mem }
        ∧ ∀ a, s.indexCell ind y ≠ some a → a ≠ e.ma → t.read a = s.read a)

/-! ## Control transfer (42_control_transfer.md) -/

/-- JMS stores PC, zero-extended, at EA, and PC goes to EA + 1 over all 15 bits, whatever EXT is; PC passes through MB and
OB (S10; D9 for the three bits above the address). -/
def Obligations.JmsStoresReturnAddress : Prop :=
  ∀ (s : State) (ind : Bool) (y : BitVec 13), let ea := (s.resolve ind y).ma
    ∃ t, exec (.jms ind y) s = .next t ∧ t.read ea = BitVec.ofNat 18 s.pc.toNat ∧ t.pc = ea + 1
      ∧ t.ac = s.ac ∧ t.link = s.link ∧ t.mb = BitVec.ofNat 18 s.pc.toNat ∧ t.ob = BitVec.ofNat 18 s.pc.toNat

/-- JMP takes PC to EA, all 15 bits (by the spec's transfer, G4: the premise of this clause alone); the indirect form, and
only it, clears the clock's flag; core changes in the auto-index cell only (D34, D37). -/
def Obligations.JmpGoesToEa : Prop :=
  ∀ (s : State) (ind : Bool) (y : BitVec 13), let e := s.resolve ind y
    ∃ t, exec (.jmp ind y) s = .next t ∧ (s.params.family.transfers = {} → t.pc = e.ma) ∧
      t = { s with
        pc := t.pc, ma := e.ma, mb := e.mb, ob := e.ob, zero := e.zero, sign := e.sign, mem := e.mem
        rtc := { s.rtc with flag := if ind then false else s.rtc.flag } }
      ∧ ∀ a, s.indexCell ind y ≠ some a → t.read a = s.read a

/-- An XCT whose target is no XCT is the execution of its target with the word in IR and its address field, in the bank of
the current PC, in MA; PC is not changed before (D33; the bank is G4: the premise). If the target is no CAL and no refused
operate word, it completes. For targets that are XCT themselves, execution goes on with each word in its own link: after n links, with n at most
chainLinks, it is the execution of the first word that is no XCT, and a chain of chainLinks + 1 links is left in progress
(R166; where a step cuts a chain is the model's, log 10). -/
def Obligations.XctExecutesItsTarget : Prop :=
  (∀ (s : State) (ind : Bool) (y : BitVec 13), s.params.family.transfers = {} →
    let e := s.resolve ind y
    let w := e.read e.ma
    let u := { e with ir := w, ma := BitVec.append (s.pc.extractLsb' 13 2) (w.extractLsb' 0 13) }
    let i := decodeWith s.params.family.layout w
    s.xctLink ind y = u ∧
    (i.opcode ≠ 8 →
      exec (.xct ind y) s = exec i u ∧
      (i.opcode ≠ 0 → (∀ b, i = .opr b → b.bit13 = false ∧ ¬ (b.ral = true ∧ b.rar = true) ∧
        ¬ (b.oas = true ∧ (b.ral = true ∨ b.rar = true))) →
        ∃ t, exec (.xct ind y) s = .next t ∧ exec i u = .next t))) ∧
  ∀ (i : Nat → Instr) (u : Nat → State),
    let links (n : Nat) : Prop := ∀ k < n, ∃ ind y, i k = .xct ind y ∧ u (k + 1) = (u k).xctLink ind y ∧
      i (k + 1) = decodeWith (u (k + 1)).params.family.layout (u (k + 1)).ir
    (∀ n ≤ chainLinks, links n → (i n).opcode ≠ 8 → exec (i 0) (u 0) = exec (i n) (u n)) ∧
    (links (chainLinks + 1) → exec (i 0) (u 0) = .next { u (chainLinks + 1) with xctChain := true })

/-- A chain of XCT in progress whose word is a direct XCT of a cell that holds the same word never ends: after any number of
steps it is in progress with that word, and PC, AC and core are unchanged; the devices are quiet, so no DRQ grant stops it
(R166, U18; the steps a chain is cut into are the model's, log 10). -/
def Obligations.SelfXctNeverEnds : Prop :=
  ∀ (s : State) (y : BitVec 13) (n : Nat), s.irq = false → s.drqQuiet = true → s.xctChain = true →
    decodeWith s.params.family.layout s.ir = .xct false y → bank s.ma = bank s.pc →
    s.read (mkAddr (bank s.pc) y) = s.ir →
      ∃ t, core.run n s = .next t ∧ t.xctChain = true ∧ t.pc = s.pc ∧ t.ac = s.ac ∧ t.mem = s.mem ∧ t.ir = s.ir

/-- CAL has no meaning and is refused (R167). -/
def Obligations.CalIsRefused : Prop :=
  ∀ (s : State) (low : BitVec 14), exec (.cal low) s = .refused .callHasNoTransfer

/-- Opcode 13 logs the instruction word and halts the machine, and changes nothing else, whatever its low bits (D11); from
then on the state has a fault of the program recorded and is no end of a run (U2; log 12). -/
def Obligations.Opcode13HaltsWithDiagnostic : Prop :=
  ∀ (s : State) (low : BitVec 14), ∃ t, exec (.eae low) s = .next t ∧
    t = { s with diags := s.diags ++ [.notImplemented s.ir], run := .halted .notImplemented } ∧
    t.programFault = true ∧ t.ended = false

/-! ## The operate group (43_operate.md) -/

/-- The rule of the whole group: the clears and the complements (by the spec in this order, G10; the other order is the
other value of the parameter), OAS or a rotate of the 19-bit ring, the skip on the values of the chosen sample point, and
the halt; only AC, Link, PC and RUN change (D12 to D15). -/
def Obligations.OperateGroupRule : Prop :=
  ∀ (b : OprBits) (s : State), b.bit13 = false → ¬ (b.ral = true ∧ b.rar = true) →
    ¬ (b.oas = true ∧ (b.ral = true ∨ b.rar = true)) →
    let a0 := s.ac
    let l0 := s.link
    let a1 : Word := match s.params.family.stageOrder with
      | .clearsFirst => if b.cma then ~~~(if b.cla then 0 else a0) else if b.cla then 0 else a0
      | .complementsFirst => if b.cla then 0 else if b.cma then ~~~a0 else a0
    let l1 : Bool := match s.params.family.stageOrder with
      | .clearsFirst => if b.cml then !(if b.cll then false else l0) else if b.cll then false else l0
      | .complementsFirst => if b.cll then false else if b.cml then !l0 else l0
    let a2 := if b.oas then a1 ||| s.dataSwitches else a1
    let ring : BitVec 19 := BitVec.append (BitVec.ofBool l1) a2
    let k := if b.arot then 2 else 1
    let r := if b.ral then ring.rotateLeft k else if b.rar then ring.rotateRight k else ring
    let a : Word := match s.params.oprSkipSample with
      | .beforeStage1 => a0
      | .afterStage1 => a1
      | .afterStage2 => r.extractLsb' 0 18
    let l : Bool := match s.params.oprSkipSample with
      | .beforeStage1 => l0
      | .afterStage1 => l1
      | .afterStage2 => r.getLsbD 18
    let skip := ((decide (a = 0) && b.sza) || (a.getLsbD 17 && b.sma) || (l && b.snl)) ^^ b.pol
    exec (.opr b) s = .next { s with
      ac := r.extractLsb' 0 18
      link := r.getLsbD 18
      pc := if skip then inc s.params s.pc else s.pc
      run := if b.hlt then .halted .hlt else s.run }

/-- Operate words with bit 13 set, with RAL and RAR, or with OAS and a rotate have no meaning and are refused (R89). -/
def Obligations.OperateWordsRefused : Prop :=
  ∀ (b : OprBits) (s : State),
    (b.bit13 = true → exec (.opr b) s = .refused .oprBit13) ∧
    (b.bit13 = false → b.ral = true → b.rar = true → exec (.opr b) s = .refused .oprRalWithRar) ∧
    (b.bit13 = false → ¬ (b.ral = true ∧ b.rar = true) → b.oas = true → (b.ral = true ∨ b.rar = true) →
      exec (.opr b) s = .refused .oprOasWithRotate)

/-- A word that selects a skip and changes neither AC nor the Link skips alike at the three sample points (R176). -/
def Obligations.SkipSampleIsUnobservableAlone : Prop :=
  ∀ (b : OprBits) (s : State) (p q : SkipSample), b.cla = false → b.cll = false → b.cma = false → b.cml = false →
    b.oas = false → b.ral = false → b.rar = false → b.bit13 = false →
    ∃ t u, exec (.opr b) { s with params := { s.params with oprSkipSample := p } } = .next t ∧
      exec (.opr b) { s with params := { s.params with oprSkipSample := q } } = .next u ∧ t.pc = u.pc ∧ t.ac = s.ac
        ∧ u.ac = s.ac

/-- The named words that clear, complement and rotate, and NOP and HLT: each changes what is written here and nothing else
(R183 to R192, R197, R198). STL and CLC clear and complement, by the spec in this order (G10): else the clear wins. -/
def Obligations.NamedOperateWords : Prop :=
  ∀ s : State,
    let l : Word := (BitVec.ofBool s.link).zeroExtend 18
    let bit (i : Nat) : Word := (BitVec.ofBool (s.ac.getLsbD i)).zeroExtend 18
    exec .ral s = .next { s with ac := (s.ac <<< 1) ||| l, link := s.ac.getLsbD 17 } ∧
    exec .rar s = .next { s with ac := (l <<< 17) ||| (s.ac >>> 1), link := s.ac.getLsbD 0 } ∧
    exec .rtl s = .next { s with ac := (s.ac <<< 2) ||| (l <<< 1) ||| bit 17, link := s.ac.getLsbD 16 } ∧
    exec .rtr s = .next { s with ac := (bit 0 <<< 17) ||| (l <<< 16) ||| (s.ac >>> 2), link := s.ac.getLsbD 1 } ∧
    exec .nop s = .next s ∧
    exec .cla s = .next { s with ac := 0 } ∧
    exec .cma s = .next { s with ac := ~~~s.ac } ∧
    exec .cll s = .next { s with link := false } ∧
    exec .cml s = .next { s with link := !s.link } ∧
    exec .stl s = .next { s with link := decide (s.params.family.stageOrder = .clearsFirst) } ∧
    exec .clc s = .next { s with
      ac := if s.params.family.stageOrder = .clearsFirst then BitVec.allOnes 18 else 0 } ∧
    exec .claCll s = .next { s with ac := 0, link := false } ∧
    exec .oas s = .next { s with ac := s.ac ||| s.dataSwitches } ∧
    exec .las s = .next { s with ac := s.dataSwitches } ∧
    exec .glk s = .next { s with ac := (BitVec.ofBool s.link).zeroExtend 18, link := false } ∧
    exec .hlt s = .next { s with run := .halted .hlt }

/-- The named skips: each changes PC only, at every sample point (R193 to R196). -/
def Obligations.NamedSkips : Prop :=
  ∀ s : State, let on (c : Bool) : State := { s with pc := if c then inc s.params s.pc else s.pc }
    exec .sma s = .next (on (s.ac.getLsbD 17)) ∧
    exec .sza s = .next (on (decide (s.ac = 0))) ∧
    exec .snl s = .next (on s.link) ∧
    exec .skp s = .next (on true) ∧
    exec .spa s = .next (on (!s.ac.getLsbD 17)) ∧
    exec .sna s = .next (on (decide (s.ac ≠ 0))) ∧
    exec .szl s = .next (on (!s.link))

/-! ## IOT and the coprocessor (44_iot_coprocessor_devices.md) -/

/-- Pulse bit 0 skips exactly when the ready flag is 1, read before any clear, and does not change the flag; pulse bit 1
clears the flag, and on the reader alone delivers its buffer, which is ORed into AC after the optional clear (R204, R205;
D16, D17; the order of the pulses and the OR are G6: the premises). -/
def Obligations.IotPulsesTestClearDeliver : Prop :=
  ∀ (s : State) (ign : BitVec 2) (b : IotBits) (d : Device), deviceOf b.dev = some d →
    s.params.family.pulseOrder = .testClearStart → s.params.family.writeBack = .or →
    ∃ t, exec (.iot ign b) s = .next t
      ∧ t.pc = (if b.pulse.getLsbD 0 && s.ready d then inc s.params s.pc else s.pc)
      ∧ (b.pulse.getLsbD 1 = true → t.ready d = false)
      ∧ (b.pulse.getLsbD 1 = false → b.pulse.getLsbD 2 = false → t.ready d = s.ready d)
      ∧ t.ac = (if b.cla then 0 else s.ac)
          ||| (if b.pulse.getLsbD 1 && decide (d = .reader) then s.rdr.buf else 0)

/-- Pulse bit 2 starts an operation: the reader is armed with 10 or 30 cycles by the mode bit of sub (sub[1] by the spec,
G5), its flag and buffer kept; the clock takes that bit as its enable and counts from 0; the teleprinter takes AC[7:0],
emits it and counts 300 cycles with its flag at 0 (D18, D19). Without it no device but for its flag, and no byte of the sink, changes. -/
def Obligations.IotStartsOperations : Prop :=
  ∀ (s : State) (ign : BitVec 2) (sub : BitVec 2) (cla : Bool) (pulse : BitVec 3),
    let byte : Byte := (if cla then (0 : Word) else s.ac).extractLsb' 0 8
    let clears := pulse.getLsbD 1
    let mode := sub.getLsbD s.params.family.modeBit
    (∃ t, exec (.iot ign ⟨1, sub, cla, pulse⟩) s = .next t ∧ t.tty = s.tty ∧ t.rtc = s.rtc ∧ t.sink = s.sink ∧
      t.rdr = (if pulse.getLsbD 2 then
          { s.rdr with
            flag := s.rdr.flag && !clears
            mode := if mode then .binary else .alpha
            delay := if mode then 30 else 10 }
        else { s.rdr with flag := s.rdr.flag && !clears })) ∧
    (∃ t, exec (.iot ign ⟨0, sub, cla, pulse⟩) s = .next t ∧ t.tty = s.tty ∧ t.rdr = s.rdr ∧ t.sink = s.sink ∧
      t.rtc = (if pulse.getLsbD 2 then
          { s.rtc with flag := s.rtc.flag && !clears, enable := mode, count := 0 }
        else { s.rtc with flag := s.rtc.flag && !clears })) ∧
    (∃ t, exec (.iot ign ⟨4, sub, cla, pulse⟩) s = .next t ∧ t.rdr = s.rdr ∧ t.rtc = s.rtc ∧
      t.sink = (if pulse.getLsbD 2 then s.sink ++ [byte] else s.sink) ∧
      t.tty = (if pulse.getLsbD 2 then { flag := false, delay := 300, buf := byte }
        else { s.tty with flag := s.tty.flag && !clears }))

/-- An IOT to an id that no device has is acknowledged with no effect but one diagnostic and the optional clear of AC (R208
for the source's words; D16 for the clear). -/
def Obligations.UnknownDeviceIsAcknowledged : Prop :=
  ∀ (s : State) (ign : BitVec 2) (b : IotBits), b.dev ≠ 0 → b.dev ≠ 1 → b.dev ≠ 4 →
    exec (.iot ign b) s = .next { s with
      ac := if b.cla then 0 else s.ac, diags := s.diags ++ [.unknownDevice b.dev], iocp := {} }

/-- The frame of every IOT: AC, PC, the devices, the sink and the diagnostics may change, the coprocessor comes to rest, and
all else, with every word of core and the Link, is kept (R200). -/
def Obligations.IotFrame : Prop :=
  ∀ (s t : State) (ign : BitVec 2) (b : IotBits), exec (.iot ign b) s = .next t →
    t = { s with
      ac := t.ac, pc := t.pc, rdr := t.rdr, tty := t.tty, rtc := t.rtc, sink := t.sink, diags := t.diags, iocp := {} }
    ∧ ∀ a, t.read a = s.read a

/-- The 11 named IOT words, each with all it changes; the bits 13:12 do not matter (R210 to R220, R90). The premises are the
spec's own readings: sub[1] as the mode bit (G5) and the OR of the reader's word (G6). -/
def Obligations.NamedIotWords : Prop :=
  ∀ (s : State) (ign : BitVec 2), s.params.family.modeBit = 1 → s.params.family.writeBack = .or →
    let u : State := { s with iocp := {} }
    let on (c : Bool) : State := { u with pc := if c then inc s.params s.pc else s.pc }
    exec (.clsf ign) s = .next (on s.rtc.flag) ∧
    exec (.rsf ign) s = .next (on s.rdr.flag) ∧
    exec (.tsf ign) s = .next (on s.tty.flag) ∧
    exec (.clof ign) s = .next { u with rtc := { s.rtc with enable := false, count := 0 } } ∧
    exec (.clon ign) s = .next { u with rtc := { s.rtc with enable := true, count := 0 } } ∧
    exec (.rcf ign) s = .next { u with ac := s.ac ||| s.rdr.buf, rdr := { s.rdr with flag := false } } ∧
    exec (.rrb ign) s = .next { u with ac := s.rdr.buf, rdr := { s.rdr with flag := false } } ∧
    exec (.rsa ign) s = .next { u with rdr := { s.rdr with mode := .alpha, delay := 10 } } ∧
    exec (.rsb ign) s = .next { u with rdr := { s.rdr with mode := .binary, delay := 30 } } ∧
    exec (.tcf ign) s = .next { u with tty := { s.tty with flag := false } } ∧
    exec (.tls ign) s = .next { u with
      tty := { flag := false, delay := 300, buf := s.ac.extractLsb' 0 8 }, sink := s.sink ++ [s.ac.extractLsb' 0 8] }

/-! ## Devices and the arbiter -/

/-- Loading N bytes in alpha mode and ticking until N refills reproduces the bytes in order, each after 10 cycles from its
start and gated by the ready flag, which the reading program clears before each start. That the flag is 1 after exactly 10
ticks is the choice of D20 (log 21): whether the count is of that tick or of the one after, R222 and R230 do not say. -/
def Obligations.TapeReaderRoundTrip : Prop :=
  ∀ (o : FrameOrder) (r : Reader) (bytes : List Byte),
    let begin : Reader := { r with tape := bytes, ptr := 0 }
    let armed (r : Reader) : Reader := { r.start false with flag := false }
    let read (r : Reader) : Reader := (Reader.tick o)^[10] (armed r)
    ∀ k, (h : k < bytes.length) →
      (read^[k + 1] begin).buf = (bytes[k]).zeroExtend 18 ∧ (read^[k + 1] begin).flag = true ∧
      (read^[k + 1] begin).ptr = k + 1 ∧ ∀ j ≤ 9, ((Reader.tick o)^[j] (armed (read^[k] begin))).flag = false

/-- A binary frame: 30 ticks after the start the three bytes at the pointer, 6 bits of each, the first the most significant
(the least with the other value of G7), stand in the buffer with the flag set; after 29 ticks the flag is as it was (D18,
D20). -/
def Obligations.BinaryFrameAfterThirtyTicks : Prop :=
  ∀ (o : FrameOrder) (r : Reader), r.ptr + 3 ≤ r.tape.length →
    let six (i : Nat) : BitVec 6 := (r.tape.getD (r.ptr + i) 0).extractLsb' 0 6
    let word : Word := match o with
      | .firstHigh => six 0 ++ six 1 ++ six 2
      | .firstLow => six 2 ++ six 1 ++ six 0
    ((Reader.tick o)^[29] (r.start true)).flag = r.flag ∧
    (Reader.tick o)^[30] (r.start true) = { r with
      buf := word, ptr := r.ptr + 3, mode := .null, delay := 0, flag := true }

/-- A print request lowers the ready flag for exactly 300 ticks (D19). -/
def Obligations.PrintTakesThreeHundredTicks : Prop :=
  ∀ (t : Teleprinter) (b : Byte), (∀ j < 300, (Teleprinter.tick^[j] (t.print b)).flag = false) ∧
    Teleprinter.tick^[300] (t.print b) = { flag := true, delay := 0, buf := b }

/-- The clock counts to the threshold and then resets; it asks for DRQ at that tick exactly when it is enabled (D21). That it
reaches and passes every threshold is the model's: its counter has no bound, the width not being in the source (DESIGN
CHOICE, log 40). -/
def Obligations.ClockPeriodAndRequest : Prop :=
  ∀ (c : Clock) (T : Nat), c.count = 0 → (∀ j ≤ T, ((fun c : Clock => c.tick T)^[j] c) = { c with count := j }) ∧
    ((fun c : Clock => c.tick T)^[T + 1] c) = { c with count := 0, drq := c.drq || c.enable }

/-- With channels 2 and 5 requesting, the arbiter grants channel 2 alone; channel 5 stays pending and is granted after
channel 2 has dropped its request (R243). -/
def Obligations.ArbiterGrantsTwoThenFive : Prop :=
  let t0 : Drq := { req := channelLine 2 ||| channelLine 5, grant := 0, outstanding := false }
  let t1 := t0.evaluate
  let t2 := (t1.drop 2).evaluate
  let t3 := t2.evaluate
  t1.grant = channelLine 2 ∧ t1.outstanding = true ∧ t1.req = t0.req ∧
    t2.grant = 0 ∧ t2.outstanding = false ∧ t2.req = channelLine 5 ∧ t3.grant = channelLine 5

/-- The arbiter grants the lowest requesting channel and no other, only while no grant is outstanding; an outstanding grant
is withdrawn at the next evaluation; requests are kept (R240, D22). -/
def Obligations.ArbiterGrantsLowestChannel : Prop :=
  ∀ d : Drq,
    (d.outstanding = true → d.evaluate = { d with grant := 0, outstanding := false }) ∧
    (d.outstanding = false → d.req = 0 → d.evaluate = d) ∧
    (d.outstanding = false → ∀ c : Fin 8, d.req.getLsbD c = true → (∀ j < c, d.req.getLsbD j = false) →
      d.evaluate.outstanding = true ∧ d.evaluate.req = d.req ∧ ∀ j : Fin 8, d.evaluate.grant.getLsbD j = decide (j = c))

/-- A cycle in which the enabled clock passes its threshold ends in a grant, and is refused (R244). -/
def Obligations.DrqGrantIsRefused : Prop :=
  ∀ s : State, s.rtc.enable = true → s.params.rtcThreshold < s.rtc.count + 1 → s.drq.grant = 0 →
    s.drq.outstanding = false → s.cycle = .refused .drqGrant

/-! ## The halted machine and the front panel (60_exceptions.md) -/

/-- A machine that waits for neutral, or is halted with the panel neutral or at read-in, fetches nothing: each device and
the clock ticks once, and AC, Link, PC, MA, IR, core, RUN and all else but the registers that R34 leaves open are kept; the
wait ends in this step exactly when the code is neutral (R257, R263, R265). Two clauses are the model's: R34 leaves MB open
too, and that MB is kept is a reading of R267 (DEDUCED, log 8); and that read-in does not end the wait is one of R271
(DEDUCED, log 25). The premises on the arbiter and the clock say that no DRQ request is pending or arises, since every grant
is refused (R244). -/
def Obligations.HaltedMachineOnlyTicksDevices : Prop :=
  ∀ s : State, s.irq = false → s.xctChain = false →
    s.drq.req = 0 → s.drq.grant = 0 → s.drq.outstanding = false →
    (s.rtc.enable = true → s.rtc.count + 1 ≤ s.params.rtcThreshold) →
    (s.awaitNeutral = true ∨ (s.run ≠ .running ∧ (s.panelAction = .neutral ∨ s.panelAction = .readIn))) →
    ∃ t, step s = .next t ∧
      t.rdr = s.rdr.tick s.params.family.frameOrder ∧ t.tty = s.tty.tick ∧ t.rtc = s.rtc.tick s.params.rtcThreshold ∧
      (t.awaitNeutral = true ↔ s.awaitNeutral = true ∧ s.panelAction ≠ .neutral) ∧
      t = { s with
        rdr := t.rdr, tty := t.tty, rtc := t.rtc, awaitNeutral := t.awaitNeutral, ob := t.ob, zero := t.zero, sign := t.sign
        skip := t.skip, currentWord := t.currentWord, nextWord := t.nextWord, draws := t.draws }

/-- Go-to and continue set the machine running, go-to from the address switches; deposit and examine work at the address
switches, and their next forms at MA + 1, the machine staying halted; the engine then waits for neutral (D25). -/
def Obligations.PanelActionsOnHaltedMachine : Prop :=
  ∀ s : State, s.irq = false → s.xctChain = false → s.awaitNeutral = false → s.run ≠ .running → s.drqQuiet = true →
    (s.panelAction = .continue → ∃ t, step s = .next t ∧ t.run = .running ∧ t.pc = s.pc ∧ t.mem = s.mem ∧ t.awaitNeutral = true) ∧
    (s.panelAction = .goTo → ∃ t, step s = .next t ∧ t.run = .running ∧ t.pc = s.addressSwitches ∧ t.mem = s.mem
      ∧ t.awaitNeutral = true) ∧
    (s.panelAction = .examine → ∃ t, step s = .next t ∧ t.run = s.run ∧ t.ma = s.addressSwitches ∧ t.mb = s.read s.addressSwitches
      ∧ t.mem = s.mem ∧ t.awaitNeutral = true) ∧
    (s.panelAction = .examineNext → ∃ t, step s = .next t ∧ t.run = s.run ∧ t.ma = s.ma + 1 ∧ t.mb = s.read (s.ma + 1)
      ∧ t.mem = s.mem ∧ t.awaitNeutral = true) ∧
    (s.panelAction = .deposit → ∃ t, step s = .next t ∧ t.run = s.run ∧ t.ma = s.addressSwitches ∧ t.awaitNeutral = true
      ∧ ∀ a, t.read a = if a = s.addressSwitches then s.dataSwitches else s.read a) ∧
    (s.panelAction = .depositNext → ∃ t, step s = .next t ∧ t.run = s.run ∧ t.ma = s.ma + 1 ∧ t.awaitNeutral = true
      ∧ ∀ a, t.read a = if a = s.ma + 1 then s.dataSwitches else s.read a)

/-- Halt-step halts a running machine before its next fetch: PC, AC, Link, IR and core are kept (D25). -/
def Obligations.HaltStepHaltsBeforeFetch : Prop :=
  ∀ s : State, s.irq = false → s.xctChain = false → s.awaitNeutral = false → s.run = .running → s.drqQuiet = true →
    s.panelAction = .haltStep → ∃ t, step s = .next t ∧ t.run = .halted .haltStep ∧ t.pc = s.pc ∧ t.ac = s.ac ∧ t.link = s.link
      ∧ t.ir = s.ir ∧ t.mem = s.mem

/-- Halt-step on a halted machine runs one instruction step and halts again; execute runs the data switches' word without a
fetch or an increment, and the machine stays halted (D25). -/
def Obligations.SingleStepReturnsToHalted : Prop :=
  ∀ s t : State, s.xctChain = false → s.awaitNeutral = false → s.run ≠ .running → step s = .next t →
    (s.panelAction = .haltStep → t.run ≠ .running ∧ ∃ u, State.runInstruction { s with run := .running } = .next u ∧
      t = { u with run := t.run, awaitNeutral := true }) ∧
    (s.panelAction = .execute → t.run ≠ .running ∧ ∃ u, State.runLoaded { s with
      ir := s.dataSwitches
      ma := BitVec.append (s.pc.extractLsb' 13 2) (s.dataSwitches.extractLsb' 0 13) } = .next u ∧
      t = { u with awaitNeutral := true })

/-! ## Level M: the bus, the latch and the ALU (40_engine_bus_alu.md) -/

/-- The first assert of a bus holds, a second is a diagnostic and is discarded, whatever a bus carries; a read gives the value
held, and of a floating bus it is a diagnostic and gives 0, whatever the width (R102, R103). -/
def Obligations.BusDiscipline : Prop :=
  (∀ (α : Type) (name : BusName) (u v : α),
    busAssert name none u = (some u, []) ∧ busAssert name (some u) v = (some u, [.multipleAssert name])) ∧
  ∀ (n : Nat) (name : BusName) (u : BitVec n),
    busRead name (some u) = (u, []) ∧ busRead name (none : Option (BitVec n)) = (0, [.floatingBus name])

/-- After a non-extended MA or PC latch the bank bits are those held before and the offset is v[12:0]; after an extended one
the full incoming 15-bit value is stored (R28). -/
def Obligations.AddressLatchKeepsOrTakesBank : Prop :=
  ∀ (m : Micro) (v : Word), m.data = some v →
    let c := m.machine.currentWord
    let t := m.latch.machine
    (c.latch.ma = true → c.bus.extended = false →
      bank t.ma = bank m.machine.ma ∧ offset t.ma = v.extractLsb' 0 13) ∧
    (c.latch.ma = true → c.bus.extended = true → t.ma = v.extractLsb' 0 15) ∧
    (c.latch.pc = true → c.bus.extended = false →
      bank t.pc = bank m.machine.pc ∧ offset t.pc = v.extractLsb' 0 13) ∧
    (c.latch.pc = true → c.bus.extended = true → t.pc = v.extractLsb' 0 15)

/-- With the OB-latch enable set, OB takes what a read of the data bus gives, Zero and Sign follow the new OB, and the Link
takes the next-Link the previous propagate computed from OB, MB and Link; with it clear, all four keep their values (R123).
Every latch recomputes Skip by the formula of 10_state.md section 3, from the IR as just latched and the Zero, Sign and Link
of before the latch (the source's property S4, in the step order that section 5 of 40_engine_bus_alu.md gives). -/
def Obligations.ObLatchUpdatesZeroSignLink : Prop :=
  ∀ m : Micro, let t := m.latch.machine
    let v := (busRead .data m.data).1
    (m.machine.currentWord.alu.obLatch = true →
      t.ob = v ∧ t.zero = decide (v = 0) ∧ t.sign = v.getLsbD 17 ∧ t.link = m.nextLink) ∧
    (m.machine.currentWord.alu.obLatch = false →
      t.ob = m.machine.ob ∧ t.zero = m.machine.zero ∧ t.sign = m.machine.sign ∧ t.link = m.machine.link) ∧
    m.propagate.nextLink = (alu m.machine.currentWord.alu m.machine.ob m.machine.mb m.machine.link).nextLink ∧
    t.skip = (((m.machine.zero && t.ir.getLsbD 7) || (m.machine.sign && t.ir.getLsbD 6)
      || (m.machine.link && t.ir.getLsbD 8)) ^^ t.ir.getLsbD 9)

/-- The shifter, by the table of R110: `shift_out` and `shift_link` of each of the four operations. -/
def Obligations.ShifterTable : Prop :=
  ∀ (ob : Word) (link : Bool), let l : Word := (BitVec.ofBool link).zeroExtend 18
    let bit (i : Nat) : Word := (BitVec.ofBool (ob.getLsbD i)).zeroExtend 18
    shift .ral ob link = ((ob <<< 1) ||| l, ob.getLsbD 17) ∧
    shift .rar ob link = ((l <<< 17) ||| (ob >>> 1), ob.getLsbD 0) ∧
    shift .rtl ob link = ((ob <<< 2) ||| (l <<< 1) ||| bit 17, ob.getLsbD 16) ∧
    shift .rtr ob link = ((bit 0 <<< 17) ||| (l <<< 16) ||| (ob >>> 2), ob.getLsbD 1)

/-- RAL then RAR, and RTL then RTR, restore the shifter register and the Link; XOR, AND, OR, CLEAR and PRESET are bitwise
(R113; that PRESET is all ones is D26). -/
def Obligations.AluIdentities : Prop :=
  ∀ (ob mb : Word) (link : Bool),
    shift .rar (shift .ral ob link).1 (shift .ral ob link).2 = (ob, link) ∧
    shift .rtr (shift .rtl ob link).1 (shift .rtl ob link).2 = (ob, link) ∧
    ∀ ones : Bool, (arith .xor ones ob mb link).1 = ob ^^^ mb ∧ (arith .and ones ob mb link).1 = ob &&& mb ∧
      (arith .or ones ob mb link).1 = ob ||| mb ∧ (arith .clear ones ob mb link).1 = 0 ∧
      (arith .preset ones ob mb link).1 = BitVec.allOnes 18

/-! ## Reset (10_state.md R52; 70_reset_and_hazards.md R281) -/

/-- The reset entry clears AC, MQ, STEP, PC and MA, in all bits, and changes nothing else; the machine that it leaves at
power-on goes on to fetch (R281). At Level M, the latch of the reset-entry word that power-on puts in `current`, after the
extra propagate (R280), has that effect; of the machine only Skip and the slots of the control word may differ from it. The
Level M clause is the model's (log 9): which other signals of that word are clear is DEDUCED, and Skip, of which R281 says
that it is not changed, is set apart because every latch recomputes it (R119). -/
def Obligations.ResetEntryClearsRegisters : Prop :=
  (∀ s : State, s.resetEntry = { s with ac := 0, mq := 0, stepReg := 0, pc := 0, ma := 0 }) ∧
  (∀ p : PowerOn, p.state.currentWord = Config.resetEntryWord ∧
    step p.state.resetEntry = p.state.resetEntry.fetch.runLoaded) ∧
  ∀ p : PowerOn, let t := (Micro.start p.state).latch.machine
    t = { p.state.resetEntry with skip := t.skip, currentWord := t.currentWord, nextWord := t.nextWord }

/-- The state after reset, in what the spec gives it, and that it is a power-on state after the reset entry (R52, R280 to
R282; D24, D35). -/
def Obligations.ResetStateValues : Prop :=
  State.reset = PowerOn.chosen.state.resetEntry ∧
  (∀ p : PowerOn, let s := p.state.resetEntry
    s.ac = 0 ∧ s.mq = 0 ∧ s.pc = 0 ∧ s.stepReg = 0 ∧ s.ma = 0 ∧ s.run = .running ∧ s.ion = false ∧ s.iocp = {} ∧
    s.rdr.mode = .null ∧ s.rdr.delay = 0 ∧ s.rdr.ptr = 0 ∧ s.rdr.tape = [] ∧ s.tty.delay = 0 ∧ s.rtc.count = 0 ∧
    s.rtc.enable = false ∧ s.rtc.drq = false ∧ s.drq = ⟨0, 0, false⟩ ∧ s.panelCode = 0) ∧
  State.reset.maai = false ∧ State.reset.params.stepWidth = 6 ∧ State.reset.params.fpCode = {} ∧
  State.reset.params.family = {}

/-! ## The whole machine -/

/-- Every instruction but CAL, XCT and a refused operate word answers a next state, in every state, and no instruction and no
step ends in a fault: the one fault is Level M's (R250, R295). -/
def Obligations.InstructionsComplete : Prop :=
  (∀ (i : Instr) (s : State), i.opcode ≠ 0 → i.opcode ≠ 8 →
    (∀ b, i = .opr b → b.bit13 = false ∧ ¬ (b.ral = true ∧ b.rar = true) ∧
      ¬ (b.oas = true ∧ (b.ral = true ∨ b.rar = true))) →
    ∃ t, exec i s = .next t) ∧
  (∀ (i : Instr) (s : State) (f : Fault), exec i s ≠ .fault f) ∧
  ∀ (s : State) (f : Fault), step s ≠ .fault f

/-- No instruction, an XCT chain with them, writes MQ, STEP, ION, the parameters, the host's inputs, the arbiter, Skip, the
control-word slots or the await-neutral wait, and none sets a halted machine running (R23, R33, R35, R45, R257). The clauses
on Skip and the slots are the model's: every latch of an instruction recomputes Skip and moves the slots, and exec leaves
that to the free values at the end of the step (logs 8, 9). -/
def Obligations.NoInstructionWritesThese : Prop :=
  ∀ (i : Instr) (s t : State), exec i s = .next t →
    t.mq = s.mq ∧ t.stepReg = s.stepReg ∧ t.ion = s.ion ∧ t.params = s.params ∧ t.dataSwitches = s.dataSwitches ∧
    t.addressSwitches = s.addressSwitches ∧ t.panelCode = s.panelCode ∧ t.drq = s.drq ∧ t.skip = s.skip ∧
    t.currentWord = s.currentWord ∧ t.nextWord = s.nextWord ∧ t.awaitNeutral = s.awaitNeutral ∧
    (s.run ≠ .running → t.run ≠ .running)

/-- The Link is written by ADD, TAD and the operate group only, RUN by the operate group and opcode 13 only, the devices and
the sink by IOT and, for the clock's flag, the indirect JMP only; XCT aside, which does what its target does (R29, R48 to
R50, R236, R257). -/
def Obligations.OnlyTheseInstructionsWrite : Prop :=
  ∀ (i : Instr) (s t : State), exec i s = .next t → i.opcode ≠ 8 →
    (i.opcode ≠ 6 → i.opcode ≠ 7 → i.opcode ≠ 15 → t.link = s.link) ∧
    (i.opcode ≠ 13 → i.opcode ≠ 15 → t.run = s.run) ∧
    (i.opcode ≠ 14 → t.rdr = s.rdr ∧ t.tty = s.tty ∧ t.sink = s.sink ∧ t.rtc = { s.rtc with flag := t.rtc.flag }) ∧
    (i.opcode ≠ 14 → (∀ y, i ≠ .jmp true y) → t.rtc = s.rtc)

/-- Every step keeps the invariant of the machine, from every state that meets it (State.Inv in Safety.lean). -/
def Obligations.StepKeepsInvariant : Prop :=
  ∀ s t : State, s.Inv → step s = .next t → t.Inv

/-- The state after reset meets the invariant. -/
def Obligations.ResetMeetsInvariant : Prop := State.reset.Inv

/-- In every step the clock's flag only falls: what would set it lies in a DRQ access, which is refused (R236). -/
def Obligations.ClockFlagNeverRises : Prop :=
  ∀ s t : State, step s = .next t → s.rtc.flag = false → t.rtc.flag = false

/-- A step changes no parameter, no host input and not ION, and keeps every byte emitted and every event logged, in order
(R35, R43, R45, R233, R251); it logs no violation of the bus discipline, which is Level M's (R104).
A recorded fault stays, and no state after it is an end of the run (R284, U2; that it outlives the panel's continue is the
model's, log 12). -/
def Obligations.StepKeepsParametersAndOutput : Prop :=
  ∀ s t : State, step s = .next t →
    t.params = s.params ∧ t.dataSwitches = s.dataSwitches ∧ t.addressSwitches = s.addressSwitches ∧
    t.panelCode = s.panelCode ∧ t.ion = s.ion ∧ s.sink <+: t.sink ∧ s.diags <+: t.diags ∧
    t.protocolError = s.protocolError ∧ (s.faulted = true → t.faulted = true ∧ t.ended = false)
end

