-- ==== Sys2Proof/Laws/State.lean ====
section
/-! SUPPORT. What each named update of State does to each field, one lemma a field, all true by rfl. -/

namespace Sys2Proof.Machine

variable (s : State)

/-! write -/

@[simp] theorem State.write_ac (a : Addr) (v : Word) : (s.write a v).ac = s.ac := rfl
@[simp] theorem State.write_mb (a : Addr) (v : Word) : (s.write a v).mb = s.mb := rfl
@[simp] theorem State.write_mq (a : Addr) (v : Word) : (s.write a v).mq = s.mq := rfl
@[simp] theorem State.write_pc (a : Addr) (v : Word) : (s.write a v).pc = s.pc := rfl
@[simp] theorem State.write_ma (a : Addr) (v : Word) : (s.write a v).ma = s.ma := rfl
@[simp] theorem State.write_ir (a : Addr) (v : Word) : (s.write a v).ir = s.ir := rfl
@[simp] theorem State.write_ob (a : Addr) (v : Word) : (s.write a v).ob = s.ob := rfl
@[simp] theorem State.write_link (a : Addr) (v : Word) : (s.write a v).link = s.link := rfl
@[simp] theorem State.write_zero (a : Addr) (v : Word) : (s.write a v).zero = s.zero := rfl
@[simp] theorem State.write_sign (a : Addr) (v : Word) : (s.write a v).sign = s.sign := rfl
@[simp] theorem State.write_skip (a : Addr) (v : Word) : (s.write a v).skip = s.skip := rfl
@[simp] theorem State.write_stepReg (a : Addr) (v : Word) : (s.write a v).stepReg = s.stepReg := rfl
@[simp] theorem State.write_currentWord (a : Addr) (v : Word) : (s.write a v).currentWord = s.currentWord := rfl
@[simp] theorem State.write_nextWord (a : Addr) (v : Word) : (s.write a v).nextWord = s.nextWord := rfl
@[simp] theorem State.write_params (a : Addr) (v : Word) : (s.write a v).params = s.params := rfl
@[simp] theorem State.write_run (a : Addr) (v : Word) : (s.write a v).run = s.run := rfl
@[simp] theorem State.write_awaitNeutral (a : Addr) (v : Word) : (s.write a v).awaitNeutral = s.awaitNeutral := rfl
@[simp] theorem State.write_xctChain (a : Addr) (v : Word) : (s.write a v).xctChain = s.xctChain := rfl
@[simp] theorem State.write_mem (a : Addr) (v : Word) : (s.write a v).mem = s.mem.write a v := rfl
@[simp] theorem State.write_dataSwitches (a : Addr) (v : Word) : (s.write a v).dataSwitches = s.dataSwitches := rfl
@[simp] theorem State.write_addressSwitches (a : Addr) (v : Word) : (s.write a v).addressSwitches = s.addressSwitches := rfl
@[simp] theorem State.write_panelCode (a : Addr) (v : Word) : (s.write a v).panelCode = s.panelCode := rfl
@[simp] theorem State.write_ion (a : Addr) (v : Word) : (s.write a v).ion = s.ion := rfl
@[simp] theorem State.write_iocp (a : Addr) (v : Word) : (s.write a v).iocp = s.iocp := rfl
@[simp] theorem State.write_rdr (a : Addr) (v : Word) : (s.write a v).rdr = s.rdr := rfl
@[simp] theorem State.write_tty (a : Addr) (v : Word) : (s.write a v).tty = s.tty := rfl
@[simp] theorem State.write_rtc (a : Addr) (v : Word) : (s.write a v).rtc = s.rtc := rfl
@[simp] theorem State.write_drq (a : Addr) (v : Word) : (s.write a v).drq = s.drq := rfl
@[simp] theorem State.write_sink (a : Addr) (v : Word) : (s.write a v).sink = s.sink := rfl
@[simp] theorem State.write_diags (a : Addr) (v : Word) : (s.write a v).diags = s.diags := rfl
@[simp] theorem State.write_draws (a : Addr) (v : Word) : (s.write a v).draws = s.draws := rfl

/-! latchOb -/

@[simp] theorem State.latchOb_ac (v : Word) : (s.latchOb v).ac = s.ac := rfl
@[simp] theorem State.latchOb_mb (v : Word) : (s.latchOb v).mb = s.mb := rfl
@[simp] theorem State.latchOb_mq (v : Word) : (s.latchOb v).mq = s.mq := rfl
@[simp] theorem State.latchOb_pc (v : Word) : (s.latchOb v).pc = s.pc := rfl
@[simp] theorem State.latchOb_ma (v : Word) : (s.latchOb v).ma = s.ma := rfl
@[simp] theorem State.latchOb_ir (v : Word) : (s.latchOb v).ir = s.ir := rfl
@[simp] theorem State.latchOb_ob (v : Word) : (s.latchOb v).ob = v := rfl
@[simp] theorem State.latchOb_link (v : Word) : (s.latchOb v).link = s.link := rfl
@[simp] theorem State.latchOb_zero (v : Word) : (s.latchOb v).zero = decide (v = 0) := rfl
@[simp] theorem State.latchOb_sign (v : Word) : (s.latchOb v).sign = v.msb := rfl
@[simp] theorem State.latchOb_skip (v : Word) : (s.latchOb v).skip = s.skip := rfl
@[simp] theorem State.latchOb_stepReg (v : Word) : (s.latchOb v).stepReg = s.stepReg := rfl
@[simp] theorem State.latchOb_currentWord (v : Word) : (s.latchOb v).currentWord = s.currentWord := rfl
@[simp] theorem State.latchOb_nextWord (v : Word) : (s.latchOb v).nextWord = s.nextWord := rfl
@[simp] theorem State.latchOb_params (v : Word) : (s.latchOb v).params = s.params := rfl
@[simp] theorem State.latchOb_run (v : Word) : (s.latchOb v).run = s.run := rfl
@[simp] theorem State.latchOb_awaitNeutral (v : Word) : (s.latchOb v).awaitNeutral = s.awaitNeutral := rfl
@[simp] theorem State.latchOb_xctChain (v : Word) : (s.latchOb v).xctChain = s.xctChain := rfl
@[simp] theorem State.latchOb_mem (v : Word) : (s.latchOb v).mem = s.mem := rfl
@[simp] theorem State.latchOb_dataSwitches (v : Word) : (s.latchOb v).dataSwitches = s.dataSwitches := rfl
@[simp] theorem State.latchOb_addressSwitches (v : Word) : (s.latchOb v).addressSwitches = s.addressSwitches := rfl
@[simp] theorem State.latchOb_panelCode (v : Word) : (s.latchOb v).panelCode = s.panelCode := rfl
@[simp] theorem State.latchOb_ion (v : Word) : (s.latchOb v).ion = s.ion := rfl
@[simp] theorem State.latchOb_iocp (v : Word) : (s.latchOb v).iocp = s.iocp := rfl
@[simp] theorem State.latchOb_rdr (v : Word) : (s.latchOb v).rdr = s.rdr := rfl
@[simp] theorem State.latchOb_tty (v : Word) : (s.latchOb v).tty = s.tty := rfl
@[simp] theorem State.latchOb_rtc (v : Word) : (s.latchOb v).rtc = s.rtc := rfl
@[simp] theorem State.latchOb_drq (v : Word) : (s.latchOb v).drq = s.drq := rfl
@[simp] theorem State.latchOb_sink (v : Word) : (s.latchOb v).sink = s.sink := rfl
@[simp] theorem State.latchOb_diags (v : Word) : (s.latchOb v).diags = s.diags := rfl
@[simp] theorem State.latchOb_draws (v : Word) : (s.latchOb v).draws = s.draws := rfl

/-! incPc -/

@[simp] theorem State.incPc_ac : (s.incPc).ac = s.ac := rfl
@[simp] theorem State.incPc_mb : (s.incPc).mb = s.mb := rfl
@[simp] theorem State.incPc_mq : (s.incPc).mq = s.mq := rfl
@[simp] theorem State.incPc_pc : (s.incPc).pc = inc s.params s.pc := rfl
@[simp] theorem State.incPc_ma : (s.incPc).ma = s.ma := rfl
@[simp] theorem State.incPc_ir : (s.incPc).ir = s.ir := rfl
@[simp] theorem State.incPc_ob : (s.incPc).ob = s.ob := rfl
@[simp] theorem State.incPc_link : (s.incPc).link = s.link := rfl
@[simp] theorem State.incPc_zero : (s.incPc).zero = s.zero := rfl
@[simp] theorem State.incPc_sign : (s.incPc).sign = s.sign := rfl
@[simp] theorem State.incPc_skip : (s.incPc).skip = s.skip := rfl
@[simp] theorem State.incPc_stepReg : (s.incPc).stepReg = s.stepReg := rfl
@[simp] theorem State.incPc_currentWord : (s.incPc).currentWord = s.currentWord := rfl
@[simp] theorem State.incPc_nextWord : (s.incPc).nextWord = s.nextWord := rfl
@[simp] theorem State.incPc_params : (s.incPc).params = s.params := rfl
@[simp] theorem State.incPc_run : (s.incPc).run = s.run := rfl
@[simp] theorem State.incPc_awaitNeutral : (s.incPc).awaitNeutral = s.awaitNeutral := rfl
@[simp] theorem State.incPc_xctChain : (s.incPc).xctChain = s.xctChain := rfl
@[simp] theorem State.incPc_mem : (s.incPc).mem = s.mem := rfl
@[simp] theorem State.incPc_dataSwitches : (s.incPc).dataSwitches = s.dataSwitches := rfl
@[simp] theorem State.incPc_addressSwitches : (s.incPc).addressSwitches = s.addressSwitches := rfl
@[simp] theorem State.incPc_panelCode : (s.incPc).panelCode = s.panelCode := rfl
@[simp] theorem State.incPc_ion : (s.incPc).ion = s.ion := rfl
@[simp] theorem State.incPc_iocp : (s.incPc).iocp = s.iocp := rfl
@[simp] theorem State.incPc_rdr : (s.incPc).rdr = s.rdr := rfl
@[simp] theorem State.incPc_tty : (s.incPc).tty = s.tty := rfl
@[simp] theorem State.incPc_rtc : (s.incPc).rtc = s.rtc := rfl
@[simp] theorem State.incPc_drq : (s.incPc).drq = s.drq := rfl
@[simp] theorem State.incPc_sink : (s.incPc).sink = s.sink := rfl
@[simp] theorem State.incPc_diags : (s.incPc).diags = s.diags := rfl
@[simp] theorem State.incPc_draws : (s.incPc).draws = s.draws := rfl

/-! skipIf -/

@[simp] theorem State.skipIf_ac (c : Bool) : (s.skipIf c).ac = s.ac := rfl
@[simp] theorem State.skipIf_mb (c : Bool) : (s.skipIf c).mb = s.mb := rfl
@[simp] theorem State.skipIf_mq (c : Bool) : (s.skipIf c).mq = s.mq := rfl
@[simp] theorem State.skipIf_pc (c : Bool) : (s.skipIf c).pc = if c then inc s.params s.pc else s.pc := rfl
@[simp] theorem State.skipIf_ma (c : Bool) : (s.skipIf c).ma = s.ma := rfl
@[simp] theorem State.skipIf_ir (c : Bool) : (s.skipIf c).ir = s.ir := rfl
@[simp] theorem State.skipIf_ob (c : Bool) : (s.skipIf c).ob = s.ob := rfl
@[simp] theorem State.skipIf_link (c : Bool) : (s.skipIf c).link = s.link := rfl
@[simp] theorem State.skipIf_zero (c : Bool) : (s.skipIf c).zero = s.zero := rfl
@[simp] theorem State.skipIf_sign (c : Bool) : (s.skipIf c).sign = s.sign := rfl
@[simp] theorem State.skipIf_skip (c : Bool) : (s.skipIf c).skip = s.skip := rfl
@[simp] theorem State.skipIf_stepReg (c : Bool) : (s.skipIf c).stepReg = s.stepReg := rfl
@[simp] theorem State.skipIf_currentWord (c : Bool) : (s.skipIf c).currentWord = s.currentWord := rfl
@[simp] theorem State.skipIf_nextWord (c : Bool) : (s.skipIf c).nextWord = s.nextWord := rfl
@[simp] theorem State.skipIf_params (c : Bool) : (s.skipIf c).params = s.params := rfl
@[simp] theorem State.skipIf_run (c : Bool) : (s.skipIf c).run = s.run := rfl
@[simp] theorem State.skipIf_awaitNeutral (c : Bool) : (s.skipIf c).awaitNeutral = s.awaitNeutral := rfl
@[simp] theorem State.skipIf_xctChain (c : Bool) : (s.skipIf c).xctChain = s.xctChain := rfl
@[simp] theorem State.skipIf_mem (c : Bool) : (s.skipIf c).mem = s.mem := rfl
@[simp] theorem State.skipIf_dataSwitches (c : Bool) : (s.skipIf c).dataSwitches = s.dataSwitches := rfl
@[simp] theorem State.skipIf_addressSwitches (c : Bool) : (s.skipIf c).addressSwitches = s.addressSwitches := rfl
@[simp] theorem State.skipIf_panelCode (c : Bool) : (s.skipIf c).panelCode = s.panelCode := rfl
@[simp] theorem State.skipIf_ion (c : Bool) : (s.skipIf c).ion = s.ion := rfl
@[simp] theorem State.skipIf_iocp (c : Bool) : (s.skipIf c).iocp = s.iocp := rfl
@[simp] theorem State.skipIf_rdr (c : Bool) : (s.skipIf c).rdr = s.rdr := rfl
@[simp] theorem State.skipIf_tty (c : Bool) : (s.skipIf c).tty = s.tty := rfl
@[simp] theorem State.skipIf_rtc (c : Bool) : (s.skipIf c).rtc = s.rtc := rfl
@[simp] theorem State.skipIf_drq (c : Bool) : (s.skipIf c).drq = s.drq := rfl
@[simp] theorem State.skipIf_sink (c : Bool) : (s.skipIf c).sink = s.sink := rfl
@[simp] theorem State.skipIf_diags (c : Bool) : (s.skipIf c).diags = s.diags := rfl
@[simp] theorem State.skipIf_draws (c : Bool) : (s.skipIf c).draws = s.draws := rfl

/-! halt -/

@[simp] theorem State.halt_ac (c : HaltCause) : (s.halt c).ac = s.ac := rfl
@[simp] theorem State.halt_mb (c : HaltCause) : (s.halt c).mb = s.mb := rfl
@[simp] theorem State.halt_mq (c : HaltCause) : (s.halt c).mq = s.mq := rfl
@[simp] theorem State.halt_pc (c : HaltCause) : (s.halt c).pc = s.pc := rfl
@[simp] theorem State.halt_ma (c : HaltCause) : (s.halt c).ma = s.ma := rfl
@[simp] theorem State.halt_ir (c : HaltCause) : (s.halt c).ir = s.ir := rfl
@[simp] theorem State.halt_ob (c : HaltCause) : (s.halt c).ob = s.ob := rfl
@[simp] theorem State.halt_link (c : HaltCause) : (s.halt c).link = s.link := rfl
@[simp] theorem State.halt_zero (c : HaltCause) : (s.halt c).zero = s.zero := rfl
@[simp] theorem State.halt_sign (c : HaltCause) : (s.halt c).sign = s.sign := rfl
@[simp] theorem State.halt_skip (c : HaltCause) : (s.halt c).skip = s.skip := rfl
@[simp] theorem State.halt_stepReg (c : HaltCause) : (s.halt c).stepReg = s.stepReg := rfl
@[simp] theorem State.halt_currentWord (c : HaltCause) : (s.halt c).currentWord = s.currentWord := rfl
@[simp] theorem State.halt_nextWord (c : HaltCause) : (s.halt c).nextWord = s.nextWord := rfl
@[simp] theorem State.halt_params (c : HaltCause) : (s.halt c).params = s.params := rfl
@[simp] theorem State.halt_run (c : HaltCause) : (s.halt c).run = .halted c := rfl
@[simp] theorem State.halt_awaitNeutral (c : HaltCause) : (s.halt c).awaitNeutral = s.awaitNeutral := rfl
@[simp] theorem State.halt_xctChain (c : HaltCause) : (s.halt c).xctChain = s.xctChain := rfl
@[simp] theorem State.halt_mem (c : HaltCause) : (s.halt c).mem = s.mem := rfl
@[simp] theorem State.halt_dataSwitches (c : HaltCause) : (s.halt c).dataSwitches = s.dataSwitches := rfl
@[simp] theorem State.halt_addressSwitches (c : HaltCause) : (s.halt c).addressSwitches = s.addressSwitches := rfl
@[simp] theorem State.halt_panelCode (c : HaltCause) : (s.halt c).panelCode = s.panelCode := rfl
@[simp] theorem State.halt_ion (c : HaltCause) : (s.halt c).ion = s.ion := rfl
@[simp] theorem State.halt_iocp (c : HaltCause) : (s.halt c).iocp = s.iocp := rfl
@[simp] theorem State.halt_rdr (c : HaltCause) : (s.halt c).rdr = s.rdr := rfl
@[simp] theorem State.halt_tty (c : HaltCause) : (s.halt c).tty = s.tty := rfl
@[simp] theorem State.halt_rtc (c : HaltCause) : (s.halt c).rtc = s.rtc := rfl
@[simp] theorem State.halt_drq (c : HaltCause) : (s.halt c).drq = s.drq := rfl
@[simp] theorem State.halt_sink (c : HaltCause) : (s.halt c).sink = s.sink := rfl
@[simp] theorem State.halt_diags (c : HaltCause) : (s.halt c).diags = s.diags := rfl
@[simp] theorem State.halt_draws (c : HaltCause) : (s.halt c).draws = s.draws := rfl

/-! log -/

@[simp] theorem State.log_ac (d : Diag) : (s.log d).ac = s.ac := rfl
@[simp] theorem State.log_mb (d : Diag) : (s.log d).mb = s.mb := rfl
@[simp] theorem State.log_mq (d : Diag) : (s.log d).mq = s.mq := rfl
@[simp] theorem State.log_pc (d : Diag) : (s.log d).pc = s.pc := rfl
@[simp] theorem State.log_ma (d : Diag) : (s.log d).ma = s.ma := rfl
@[simp] theorem State.log_ir (d : Diag) : (s.log d).ir = s.ir := rfl
@[simp] theorem State.log_ob (d : Diag) : (s.log d).ob = s.ob := rfl
@[simp] theorem State.log_link (d : Diag) : (s.log d).link = s.link := rfl
@[simp] theorem State.log_zero (d : Diag) : (s.log d).zero = s.zero := rfl
@[simp] theorem State.log_sign (d : Diag) : (s.log d).sign = s.sign := rfl
@[simp] theorem State.log_skip (d : Diag) : (s.log d).skip = s.skip := rfl
@[simp] theorem State.log_stepReg (d : Diag) : (s.log d).stepReg = s.stepReg := rfl
@[simp] theorem State.log_currentWord (d : Diag) : (s.log d).currentWord = s.currentWord := rfl
@[simp] theorem State.log_nextWord (d : Diag) : (s.log d).nextWord = s.nextWord := rfl
@[simp] theorem State.log_params (d : Diag) : (s.log d).params = s.params := rfl
@[simp] theorem State.log_run (d : Diag) : (s.log d).run = s.run := rfl
@[simp] theorem State.log_awaitNeutral (d : Diag) : (s.log d).awaitNeutral = s.awaitNeutral := rfl
@[simp] theorem State.log_xctChain (d : Diag) : (s.log d).xctChain = s.xctChain := rfl
@[simp] theorem State.log_mem (d : Diag) : (s.log d).mem = s.mem := rfl
@[simp] theorem State.log_dataSwitches (d : Diag) : (s.log d).dataSwitches = s.dataSwitches := rfl
@[simp] theorem State.log_addressSwitches (d : Diag) : (s.log d).addressSwitches = s.addressSwitches := rfl
@[simp] theorem State.log_panelCode (d : Diag) : (s.log d).panelCode = s.panelCode := rfl
@[simp] theorem State.log_ion (d : Diag) : (s.log d).ion = s.ion := rfl
@[simp] theorem State.log_iocp (d : Diag) : (s.log d).iocp = s.iocp := rfl
@[simp] theorem State.log_rdr (d : Diag) : (s.log d).rdr = s.rdr := rfl
@[simp] theorem State.log_tty (d : Diag) : (s.log d).tty = s.tty := rfl
@[simp] theorem State.log_rtc (d : Diag) : (s.log d).rtc = s.rtc := rfl
@[simp] theorem State.log_drq (d : Diag) : (s.log d).drq = s.drq := rfl
@[simp] theorem State.log_sink (d : Diag) : (s.log d).sink = s.sink := rfl
@[simp] theorem State.log_diags (d : Diag) : (s.log d).diags = s.diags ++ [d] := rfl
@[simp] theorem State.log_draws (d : Diag) : (s.log d).draws = s.draws := rfl

/-! jmpiIntdet -/

@[simp] theorem State.jmpiIntdet_ac : (s.jmpiIntdet).ac = s.ac := rfl
@[simp] theorem State.jmpiIntdet_mb : (s.jmpiIntdet).mb = s.mb := rfl
@[simp] theorem State.jmpiIntdet_mq : (s.jmpiIntdet).mq = s.mq := rfl
@[simp] theorem State.jmpiIntdet_pc : (s.jmpiIntdet).pc = s.pc := rfl
@[simp] theorem State.jmpiIntdet_ma : (s.jmpiIntdet).ma = s.ma := rfl
@[simp] theorem State.jmpiIntdet_ir : (s.jmpiIntdet).ir = s.ir := rfl
@[simp] theorem State.jmpiIntdet_ob : (s.jmpiIntdet).ob = s.ob := rfl
@[simp] theorem State.jmpiIntdet_link : (s.jmpiIntdet).link = s.link := rfl
@[simp] theorem State.jmpiIntdet_zero : (s.jmpiIntdet).zero = s.zero := rfl
@[simp] theorem State.jmpiIntdet_sign : (s.jmpiIntdet).sign = s.sign := rfl
@[simp] theorem State.jmpiIntdet_skip : (s.jmpiIntdet).skip = s.skip := rfl
@[simp] theorem State.jmpiIntdet_stepReg : (s.jmpiIntdet).stepReg = s.stepReg := rfl
@[simp] theorem State.jmpiIntdet_currentWord : (s.jmpiIntdet).currentWord = s.currentWord := rfl
@[simp] theorem State.jmpiIntdet_nextWord : (s.jmpiIntdet).nextWord = s.nextWord := rfl
@[simp] theorem State.jmpiIntdet_params : (s.jmpiIntdet).params = s.params := rfl
@[simp] theorem State.jmpiIntdet_run : (s.jmpiIntdet).run = s.run := rfl
@[simp] theorem State.jmpiIntdet_awaitNeutral : (s.jmpiIntdet).awaitNeutral = s.awaitNeutral := rfl
@[simp] theorem State.jmpiIntdet_xctChain : (s.jmpiIntdet).xctChain = s.xctChain := rfl
@[simp] theorem State.jmpiIntdet_mem : (s.jmpiIntdet).mem = s.mem := rfl
@[simp] theorem State.jmpiIntdet_dataSwitches : (s.jmpiIntdet).dataSwitches = s.dataSwitches := rfl
@[simp] theorem State.jmpiIntdet_addressSwitches : (s.jmpiIntdet).addressSwitches = s.addressSwitches := rfl
@[simp] theorem State.jmpiIntdet_panelCode : (s.jmpiIntdet).panelCode = s.panelCode := rfl
@[simp] theorem State.jmpiIntdet_ion : (s.jmpiIntdet).ion = s.ion := rfl
@[simp] theorem State.jmpiIntdet_iocp : (s.jmpiIntdet).iocp = s.iocp := rfl
@[simp] theorem State.jmpiIntdet_rdr : (s.jmpiIntdet).rdr = s.rdr := rfl
@[simp] theorem State.jmpiIntdet_tty : (s.jmpiIntdet).tty = s.tty := rfl
@[simp] theorem State.jmpiIntdet_rtc : (s.jmpiIntdet).rtc = { s.rtc with flag := false } := rfl
@[simp] theorem State.jmpiIntdet_drq : (s.jmpiIntdet).drq = s.drq := rfl
@[simp] theorem State.jmpiIntdet_sink : (s.jmpiIntdet).sink = s.sink := rfl
@[simp] theorem State.jmpiIntdet_diags : (s.jmpiIntdet).diags = s.diags := rfl
@[simp] theorem State.jmpiIntdet_draws : (s.jmpiIntdet).draws = s.draws := rfl

/-! loadIr -/

@[simp] theorem State.loadIr_ac (w : Word) : (s.loadIr w).ac = s.ac := rfl
@[simp] theorem State.loadIr_mb (w : Word) : (s.loadIr w).mb = s.mb := rfl
@[simp] theorem State.loadIr_mq (w : Word) : (s.loadIr w).mq = s.mq := rfl
@[simp] theorem State.loadIr_pc (w : Word) : (s.loadIr w).pc = s.pc := rfl
@[simp] theorem State.loadIr_ma (w : Word) : (s.loadIr w).ma = mkAddr (bank s.pc) (w.extractLsb' 0 13) := rfl
@[simp] theorem State.loadIr_ir (w : Word) : (s.loadIr w).ir = w := rfl
@[simp] theorem State.loadIr_ob (w : Word) : (s.loadIr w).ob = s.ob := rfl
@[simp] theorem State.loadIr_link (w : Word) : (s.loadIr w).link = s.link := rfl
@[simp] theorem State.loadIr_zero (w : Word) : (s.loadIr w).zero = s.zero := rfl
@[simp] theorem State.loadIr_sign (w : Word) : (s.loadIr w).sign = s.sign := rfl
@[simp] theorem State.loadIr_skip (w : Word) : (s.loadIr w).skip = s.skip := rfl
@[simp] theorem State.loadIr_stepReg (w : Word) : (s.loadIr w).stepReg = s.stepReg := rfl
@[simp] theorem State.loadIr_currentWord (w : Word) : (s.loadIr w).currentWord = s.currentWord := rfl
@[simp] theorem State.loadIr_nextWord (w : Word) : (s.loadIr w).nextWord = s.nextWord := rfl
@[simp] theorem State.loadIr_params (w : Word) : (s.loadIr w).params = s.params := rfl
@[simp] theorem State.loadIr_run (w : Word) : (s.loadIr w).run = s.run := rfl
@[simp] theorem State.loadIr_awaitNeutral (w : Word) : (s.loadIr w).awaitNeutral = s.awaitNeutral := rfl
@[simp] theorem State.loadIr_xctChain (w : Word) : (s.loadIr w).xctChain = s.xctChain := rfl
@[simp] theorem State.loadIr_mem (w : Word) : (s.loadIr w).mem = s.mem := rfl
@[simp] theorem State.loadIr_dataSwitches (w : Word) : (s.loadIr w).dataSwitches = s.dataSwitches := rfl
@[simp] theorem State.loadIr_addressSwitches (w : Word) : (s.loadIr w).addressSwitches = s.addressSwitches := rfl
@[simp] theorem State.loadIr_panelCode (w : Word) : (s.loadIr w).panelCode = s.panelCode := rfl
@[simp] theorem State.loadIr_ion (w : Word) : (s.loadIr w).ion = s.ion := rfl
@[simp] theorem State.loadIr_iocp (w : Word) : (s.loadIr w).iocp = s.iocp := rfl
@[simp] theorem State.loadIr_rdr (w : Word) : (s.loadIr w).rdr = s.rdr := rfl
@[simp] theorem State.loadIr_tty (w : Word) : (s.loadIr w).tty = s.tty := rfl
@[simp] theorem State.loadIr_rtc (w : Word) : (s.loadIr w).rtc = s.rtc := rfl
@[simp] theorem State.loadIr_drq (w : Word) : (s.loadIr w).drq = s.drq := rfl
@[simp] theorem State.loadIr_sink (w : Word) : (s.loadIr w).sink = s.sink := rfl
@[simp] theorem State.loadIr_diags (w : Word) : (s.loadIr w).diags = s.diags := rfl
@[simp] theorem State.loadIr_draws (w : Word) : (s.loadIr w).draws = s.draws := rfl

/-! fetch -/

@[simp] theorem State.fetch_ac : (s.fetch).ac = s.ac := rfl
@[simp] theorem State.fetch_mb : (s.fetch).mb = s.read s.pc := rfl
@[simp] theorem State.fetch_mq : (s.fetch).mq = s.mq := rfl
@[simp] theorem State.fetch_pc : (s.fetch).pc = inc s.params s.pc := rfl
@[simp] theorem State.fetch_ma : (s.fetch).ma = mkAddr (bank s.pc) ((s.read s.pc).extractLsb' 0 13) := rfl
@[simp] theorem State.fetch_ir : (s.fetch).ir = s.read s.pc := rfl
@[simp] theorem State.fetch_ob : (s.fetch).ob = s.read s.pc := rfl
@[simp] theorem State.fetch_link : (s.fetch).link = s.link := rfl
@[simp] theorem State.fetch_zero : (s.fetch).zero = decide (s.read s.pc = 0) := rfl
@[simp] theorem State.fetch_sign : (s.fetch).sign = (s.read s.pc).msb := rfl
@[simp] theorem State.fetch_skip : (s.fetch).skip = s.skip := rfl
@[simp] theorem State.fetch_stepReg : (s.fetch).stepReg = s.stepReg := rfl
@[simp] theorem State.fetch_currentWord : (s.fetch).currentWord = s.currentWord := rfl
@[simp] theorem State.fetch_nextWord : (s.fetch).nextWord = s.nextWord := rfl
@[simp] theorem State.fetch_params : (s.fetch).params = s.params := rfl
@[simp] theorem State.fetch_run : (s.fetch).run = s.run := rfl
@[simp] theorem State.fetch_awaitNeutral : (s.fetch).awaitNeutral = s.awaitNeutral := rfl
@[simp] theorem State.fetch_xctChain : (s.fetch).xctChain = s.xctChain := rfl
@[simp] theorem State.fetch_mem : (s.fetch).mem = s.mem := rfl
@[simp] theorem State.fetch_dataSwitches : (s.fetch).dataSwitches = s.dataSwitches := rfl
@[simp] theorem State.fetch_addressSwitches : (s.fetch).addressSwitches = s.addressSwitches := rfl
@[simp] theorem State.fetch_panelCode : (s.fetch).panelCode = s.panelCode := rfl
@[simp] theorem State.fetch_ion : (s.fetch).ion = s.ion := rfl
@[simp] theorem State.fetch_iocp : (s.fetch).iocp = s.iocp := rfl
@[simp] theorem State.fetch_rdr : (s.fetch).rdr = s.rdr := rfl
@[simp] theorem State.fetch_tty : (s.fetch).tty = s.tty := rfl
@[simp] theorem State.fetch_rtc : (s.fetch).rtc = s.rtc := rfl
@[simp] theorem State.fetch_drq : (s.fetch).drq = s.drq := rfl
@[simp] theorem State.fetch_sink : (s.fetch).sink = s.sink := rfl
@[simp] theorem State.fetch_diags : (s.fetch).diags = s.diags := rfl
@[simp] theorem State.fetch_draws : (s.fetch).draws = s.draws := rfl

/-! autoIndexed -/

@[simp] theorem State.autoIndexed_ac (c : Addr) : (s.autoIndexed c).ac = s.ac := rfl
@[simp] theorem State.autoIndexed_mb (c : Addr) : (s.autoIndexed c).mb = s.read c := rfl
@[simp] theorem State.autoIndexed_mq (c : Addr) : (s.autoIndexed c).mq = s.mq := rfl
@[simp] theorem State.autoIndexed_pc (c : Addr) : (s.autoIndexed c).pc = s.pc := rfl
@[simp] theorem State.autoIndexed_ma (c : Addr) : (s.autoIndexed c).ma = latchAddr s.params.ext s.ma (s.read c + 1) := rfl
@[simp] theorem State.autoIndexed_ir (c : Addr) : (s.autoIndexed c).ir = s.ir := rfl
@[simp] theorem State.autoIndexed_ob (c : Addr) : (s.autoIndexed c).ob = s.read c := rfl
@[simp] theorem State.autoIndexed_link (c : Addr) : (s.autoIndexed c).link = s.link := rfl
@[simp] theorem State.autoIndexed_zero (c : Addr) : (s.autoIndexed c).zero = decide (s.read c = 0) := rfl
@[simp] theorem State.autoIndexed_sign (c : Addr) : (s.autoIndexed c).sign = (s.read c).msb := rfl
@[simp] theorem State.autoIndexed_skip (c : Addr) : (s.autoIndexed c).skip = s.skip := rfl
@[simp] theorem State.autoIndexed_stepReg (c : Addr) : (s.autoIndexed c).stepReg = s.stepReg := rfl
@[simp] theorem State.autoIndexed_currentWord (c : Addr) : (s.autoIndexed c).currentWord = s.currentWord := rfl
@[simp] theorem State.autoIndexed_nextWord (c : Addr) : (s.autoIndexed c).nextWord = s.nextWord := rfl
@[simp] theorem State.autoIndexed_params (c : Addr) : (s.autoIndexed c).params = s.params := rfl
@[simp] theorem State.autoIndexed_run (c : Addr) : (s.autoIndexed c).run = s.run := rfl
@[simp] theorem State.autoIndexed_awaitNeutral (c : Addr) : (s.autoIndexed c).awaitNeutral = s.awaitNeutral := rfl
@[simp] theorem State.autoIndexed_xctChain (c : Addr) : (s.autoIndexed c).xctChain = s.xctChain := rfl
@[simp] theorem State.autoIndexed_mem (c : Addr) : (s.autoIndexed c).mem = s.mem.write c (s.read c + 1) := rfl
@[simp] theorem State.autoIndexed_dataSwitches (c : Addr) : (s.autoIndexed c).dataSwitches = s.dataSwitches := rfl
@[simp] theorem State.autoIndexed_addressSwitches (c : Addr) : (s.autoIndexed c).addressSwitches = s.addressSwitches := rfl
@[simp] theorem State.autoIndexed_panelCode (c : Addr) : (s.autoIndexed c).panelCode = s.panelCode := rfl
@[simp] theorem State.autoIndexed_ion (c : Addr) : (s.autoIndexed c).ion = s.ion := rfl
@[simp] theorem State.autoIndexed_iocp (c : Addr) : (s.autoIndexed c).iocp = s.iocp := rfl
@[simp] theorem State.autoIndexed_rdr (c : Addr) : (s.autoIndexed c).rdr = s.rdr := rfl
@[simp] theorem State.autoIndexed_tty (c : Addr) : (s.autoIndexed c).tty = s.tty := rfl
@[simp] theorem State.autoIndexed_rtc (c : Addr) : (s.autoIndexed c).rtc = s.rtc := rfl
@[simp] theorem State.autoIndexed_drq (c : Addr) : (s.autoIndexed c).drq = s.drq := rfl
@[simp] theorem State.autoIndexed_sink (c : Addr) : (s.autoIndexed c).sink = s.sink := rfl
@[simp] theorem State.autoIndexed_diags (c : Addr) : (s.autoIndexed c).diags = s.diags := rfl
@[simp] theorem State.autoIndexed_draws (c : Addr) : (s.autoIndexed c).draws = s.draws := rfl

/-! indirect -/

@[simp] theorem State.indirect_ac : (s.indirect).ac = s.ac := rfl
@[simp] theorem State.indirect_mb : (s.indirect).mb = s.read s.ma := rfl
@[simp] theorem State.indirect_mq : (s.indirect).mq = s.mq := rfl
@[simp] theorem State.indirect_pc : (s.indirect).pc = s.pc := rfl
@[simp] theorem State.indirect_ma : (s.indirect).ma = latchAddr s.params.ext s.ma (s.read s.ma) := rfl
@[simp] theorem State.indirect_ir : (s.indirect).ir = s.ir := rfl
@[simp] theorem State.indirect_ob : (s.indirect).ob = s.ob := rfl
@[simp] theorem State.indirect_link : (s.indirect).link = s.link := rfl
@[simp] theorem State.indirect_zero : (s.indirect).zero = s.zero := rfl
@[simp] theorem State.indirect_sign : (s.indirect).sign = s.sign := rfl
@[simp] theorem State.indirect_skip : (s.indirect).skip = s.skip := rfl
@[simp] theorem State.indirect_stepReg : (s.indirect).stepReg = s.stepReg := rfl
@[simp] theorem State.indirect_currentWord : (s.indirect).currentWord = s.currentWord := rfl
@[simp] theorem State.indirect_nextWord : (s.indirect).nextWord = s.nextWord := rfl
@[simp] theorem State.indirect_params : (s.indirect).params = s.params := rfl
@[simp] theorem State.indirect_run : (s.indirect).run = s.run := rfl
@[simp] theorem State.indirect_awaitNeutral : (s.indirect).awaitNeutral = s.awaitNeutral := rfl
@[simp] theorem State.indirect_xctChain : (s.indirect).xctChain = s.xctChain := rfl
@[simp] theorem State.indirect_mem : (s.indirect).mem = s.mem := rfl
@[simp] theorem State.indirect_dataSwitches : (s.indirect).dataSwitches = s.dataSwitches := rfl
@[simp] theorem State.indirect_addressSwitches : (s.indirect).addressSwitches = s.addressSwitches := rfl
@[simp] theorem State.indirect_panelCode : (s.indirect).panelCode = s.panelCode := rfl
@[simp] theorem State.indirect_ion : (s.indirect).ion = s.ion := rfl
@[simp] theorem State.indirect_iocp : (s.indirect).iocp = s.iocp := rfl
@[simp] theorem State.indirect_rdr : (s.indirect).rdr = s.rdr := rfl
@[simp] theorem State.indirect_tty : (s.indirect).tty = s.tty := rfl
@[simp] theorem State.indirect_rtc : (s.indirect).rtc = s.rtc := rfl
@[simp] theorem State.indirect_drq : (s.indirect).drq = s.drq := rfl
@[simp] theorem State.indirect_sink : (s.indirect).sink = s.sink := rfl
@[simp] theorem State.indirect_diags : (s.indirect).diags = s.diags := rfl
@[simp] theorem State.indirect_draws : (s.indirect).draws = s.draws := rfl

/-! iocpRequest -/

@[simp] theorem State.iocpRequest_ac : (s.iocpRequest).ac = s.ac := rfl
@[simp] theorem State.iocpRequest_mb : (s.iocpRequest).mb = s.mb := rfl
@[simp] theorem State.iocpRequest_mq : (s.iocpRequest).mq = s.mq := rfl
@[simp] theorem State.iocpRequest_pc : (s.iocpRequest).pc = s.pc := rfl
@[simp] theorem State.iocpRequest_ma : (s.iocpRequest).ma = s.ma := rfl
@[simp] theorem State.iocpRequest_ir : (s.iocpRequest).ir = s.ir := rfl
@[simp] theorem State.iocpRequest_ob : (s.iocpRequest).ob = s.ob := rfl
@[simp] theorem State.iocpRequest_link : (s.iocpRequest).link = s.link := rfl
@[simp] theorem State.iocpRequest_zero : (s.iocpRequest).zero = s.zero := rfl
@[simp] theorem State.iocpRequest_sign : (s.iocpRequest).sign = s.sign := rfl
@[simp] theorem State.iocpRequest_skip : (s.iocpRequest).skip = s.skip := rfl
@[simp] theorem State.iocpRequest_stepReg : (s.iocpRequest).stepReg = s.stepReg := rfl
@[simp] theorem State.iocpRequest_currentWord : (s.iocpRequest).currentWord = s.currentWord := rfl
@[simp] theorem State.iocpRequest_nextWord : (s.iocpRequest).nextWord = s.nextWord := rfl
@[simp] theorem State.iocpRequest_params : (s.iocpRequest).params = s.params := rfl
@[simp] theorem State.iocpRequest_run : (s.iocpRequest).run = s.run := rfl
@[simp] theorem State.iocpRequest_awaitNeutral : (s.iocpRequest).awaitNeutral = s.awaitNeutral := rfl
@[simp] theorem State.iocpRequest_xctChain : (s.iocpRequest).xctChain = s.xctChain := rfl
@[simp] theorem State.iocpRequest_mem : (s.iocpRequest).mem = s.mem := rfl
@[simp] theorem State.iocpRequest_dataSwitches : (s.iocpRequest).dataSwitches = s.dataSwitches := rfl
@[simp] theorem State.iocpRequest_addressSwitches : (s.iocpRequest).addressSwitches = s.addressSwitches := rfl
@[simp] theorem State.iocpRequest_panelCode : (s.iocpRequest).panelCode = s.panelCode := rfl
@[simp] theorem State.iocpRequest_ion : (s.iocpRequest).ion = s.ion := rfl
@[simp] theorem State.iocpRequest_iocp : (s.iocpRequest).iocp = { busy := true, reqPrev := true } := rfl
@[simp] theorem State.iocpRequest_rdr : (s.iocpRequest).rdr = s.rdr := rfl
@[simp] theorem State.iocpRequest_tty : (s.iocpRequest).tty = s.tty := rfl
@[simp] theorem State.iocpRequest_rtc : (s.iocpRequest).rtc = s.rtc := rfl
@[simp] theorem State.iocpRequest_drq : (s.iocpRequest).drq = s.drq := rfl
@[simp] theorem State.iocpRequest_sink : (s.iocpRequest).sink = s.sink := rfl
@[simp] theorem State.iocpRequest_diags : (s.iocpRequest).diags = s.diags := rfl
@[simp] theorem State.iocpRequest_draws : (s.iocpRequest).draws = s.draws := rfl

/-! takeWriteBack -/

@[simp] theorem State.takeWriteBack_ac : (s.takeWriteBack).ac = if s.iocp.wbValid then combineWriteBack s.params.family.writeBack s.ac s.iocp.wb else s.ac := rfl
@[simp] theorem State.takeWriteBack_mb : (s.takeWriteBack).mb = s.mb := rfl
@[simp] theorem State.takeWriteBack_mq : (s.takeWriteBack).mq = s.mq := rfl
@[simp] theorem State.takeWriteBack_pc : (s.takeWriteBack).pc = s.pc := rfl
@[simp] theorem State.takeWriteBack_ma : (s.takeWriteBack).ma = s.ma := rfl
@[simp] theorem State.takeWriteBack_ir : (s.takeWriteBack).ir = s.ir := rfl
@[simp] theorem State.takeWriteBack_ob : (s.takeWriteBack).ob = s.ob := rfl
@[simp] theorem State.takeWriteBack_link : (s.takeWriteBack).link = s.link := rfl
@[simp] theorem State.takeWriteBack_zero : (s.takeWriteBack).zero = s.zero := rfl
@[simp] theorem State.takeWriteBack_sign : (s.takeWriteBack).sign = s.sign := rfl
@[simp] theorem State.takeWriteBack_skip : (s.takeWriteBack).skip = s.skip := rfl
@[simp] theorem State.takeWriteBack_stepReg : (s.takeWriteBack).stepReg = s.stepReg := rfl
@[simp] theorem State.takeWriteBack_currentWord : (s.takeWriteBack).currentWord = s.currentWord := rfl
@[simp] theorem State.takeWriteBack_nextWord : (s.takeWriteBack).nextWord = s.nextWord := rfl
@[simp] theorem State.takeWriteBack_params : (s.takeWriteBack).params = s.params := rfl
@[simp] theorem State.takeWriteBack_run : (s.takeWriteBack).run = s.run := rfl
@[simp] theorem State.takeWriteBack_awaitNeutral : (s.takeWriteBack).awaitNeutral = s.awaitNeutral := rfl
@[simp] theorem State.takeWriteBack_xctChain : (s.takeWriteBack).xctChain = s.xctChain := rfl
@[simp] theorem State.takeWriteBack_mem : (s.takeWriteBack).mem = s.mem := rfl
@[simp] theorem State.takeWriteBack_dataSwitches : (s.takeWriteBack).dataSwitches = s.dataSwitches := rfl
@[simp] theorem State.takeWriteBack_addressSwitches : (s.takeWriteBack).addressSwitches = s.addressSwitches := rfl
@[simp] theorem State.takeWriteBack_panelCode : (s.takeWriteBack).panelCode = s.panelCode := rfl
@[simp] theorem State.takeWriteBack_ion : (s.takeWriteBack).ion = s.ion := rfl
@[simp] theorem State.takeWriteBack_iocp : (s.takeWriteBack).iocp = { s.iocp with wbValid := false } := rfl
@[simp] theorem State.takeWriteBack_rdr : (s.takeWriteBack).rdr = s.rdr := rfl
@[simp] theorem State.takeWriteBack_tty : (s.takeWriteBack).tty = s.tty := rfl
@[simp] theorem State.takeWriteBack_rtc : (s.takeWriteBack).rtc = s.rtc := rfl
@[simp] theorem State.takeWriteBack_drq : (s.takeWriteBack).drq = s.drq := rfl
@[simp] theorem State.takeWriteBack_sink : (s.takeWriteBack).sink = s.sink := rfl
@[simp] theorem State.takeWriteBack_diags : (s.takeWriteBack).diags = s.diags := rfl
@[simp] theorem State.takeWriteBack_draws : (s.takeWriteBack).draws = s.draws := rfl

/-! takeAck -/

@[simp] theorem State.takeAck_ac : (s.takeAck).ac = if s.iocp.wbValid then combineWriteBack s.params.family.writeBack s.ac s.iocp.wb else s.ac := rfl
@[simp] theorem State.takeAck_mb : (s.takeAck).mb = s.mb := rfl
@[simp] theorem State.takeAck_mq : (s.takeAck).mq = s.mq := rfl
@[simp] theorem State.takeAck_pc : (s.takeAck).pc = if s.iocp.skip then inc s.params s.pc else s.pc := rfl
@[simp] theorem State.takeAck_ma : (s.takeAck).ma = s.ma := rfl
@[simp] theorem State.takeAck_ir : (s.takeAck).ir = s.ir := rfl
@[simp] theorem State.takeAck_ob : (s.takeAck).ob = s.ob := rfl
@[simp] theorem State.takeAck_link : (s.takeAck).link = s.link := rfl
@[simp] theorem State.takeAck_zero : (s.takeAck).zero = s.zero := rfl
@[simp] theorem State.takeAck_sign : (s.takeAck).sign = s.sign := rfl
@[simp] theorem State.takeAck_skip : (s.takeAck).skip = s.skip := rfl
@[simp] theorem State.takeAck_stepReg : (s.takeAck).stepReg = s.stepReg := rfl
@[simp] theorem State.takeAck_currentWord : (s.takeAck).currentWord = s.currentWord := rfl
@[simp] theorem State.takeAck_nextWord : (s.takeAck).nextWord = s.nextWord := rfl
@[simp] theorem State.takeAck_params : (s.takeAck).params = s.params := rfl
@[simp] theorem State.takeAck_run : (s.takeAck).run = s.run := rfl
@[simp] theorem State.takeAck_awaitNeutral : (s.takeAck).awaitNeutral = s.awaitNeutral := rfl
@[simp] theorem State.takeAck_xctChain : (s.takeAck).xctChain = s.xctChain := rfl
@[simp] theorem State.takeAck_mem : (s.takeAck).mem = s.mem := rfl
@[simp] theorem State.takeAck_dataSwitches : (s.takeAck).dataSwitches = s.dataSwitches := rfl
@[simp] theorem State.takeAck_addressSwitches : (s.takeAck).addressSwitches = s.addressSwitches := rfl
@[simp] theorem State.takeAck_panelCode : (s.takeAck).panelCode = s.panelCode := rfl
@[simp] theorem State.takeAck_ion : (s.takeAck).ion = s.ion := rfl
@[simp] theorem State.takeAck_iocp : (s.takeAck).iocp = {} := rfl
@[simp] theorem State.takeAck_rdr : (s.takeAck).rdr = s.rdr := rfl
@[simp] theorem State.takeAck_tty : (s.takeAck).tty = s.tty := rfl
@[simp] theorem State.takeAck_rtc : (s.takeAck).rtc = s.rtc := rfl
@[simp] theorem State.takeAck_drq : (s.takeAck).drq = s.drq := rfl
@[simp] theorem State.takeAck_sink : (s.takeAck).sink = s.sink := rfl
@[simp] theorem State.takeAck_diags : (s.takeAck).diags = s.diags := rfl
@[simp] theorem State.takeAck_draws : (s.takeAck).draws = s.draws := rfl

/-! tickDevices -/

@[simp] theorem State.tickDevices_ac : (s.tickDevices).ac = s.ac := rfl
@[simp] theorem State.tickDevices_mb : (s.tickDevices).mb = s.mb := rfl
@[simp] theorem State.tickDevices_mq : (s.tickDevices).mq = s.mq := rfl
@[simp] theorem State.tickDevices_pc : (s.tickDevices).pc = s.pc := rfl
@[simp] theorem State.tickDevices_ma : (s.tickDevices).ma = s.ma := rfl
@[simp] theorem State.tickDevices_ir : (s.tickDevices).ir = s.ir := rfl
@[simp] theorem State.tickDevices_ob : (s.tickDevices).ob = s.ob := rfl
@[simp] theorem State.tickDevices_link : (s.tickDevices).link = s.link := rfl
@[simp] theorem State.tickDevices_zero : (s.tickDevices).zero = s.zero := rfl
@[simp] theorem State.tickDevices_sign : (s.tickDevices).sign = s.sign := rfl
@[simp] theorem State.tickDevices_skip : (s.tickDevices).skip = s.skip := rfl
@[simp] theorem State.tickDevices_stepReg : (s.tickDevices).stepReg = s.stepReg := rfl
@[simp] theorem State.tickDevices_currentWord : (s.tickDevices).currentWord = s.currentWord := rfl
@[simp] theorem State.tickDevices_nextWord : (s.tickDevices).nextWord = s.nextWord := rfl
@[simp] theorem State.tickDevices_params : (s.tickDevices).params = s.params := rfl
@[simp] theorem State.tickDevices_run : (s.tickDevices).run = s.run := rfl
@[simp] theorem State.tickDevices_awaitNeutral : (s.tickDevices).awaitNeutral = s.awaitNeutral := rfl
@[simp] theorem State.tickDevices_xctChain : (s.tickDevices).xctChain = s.xctChain := rfl
@[simp] theorem State.tickDevices_mem : (s.tickDevices).mem = s.mem := rfl
@[simp] theorem State.tickDevices_dataSwitches : (s.tickDevices).dataSwitches = s.dataSwitches := rfl
@[simp] theorem State.tickDevices_addressSwitches : (s.tickDevices).addressSwitches = s.addressSwitches := rfl
@[simp] theorem State.tickDevices_panelCode : (s.tickDevices).panelCode = s.panelCode := rfl
@[simp] theorem State.tickDevices_ion : (s.tickDevices).ion = s.ion := rfl
@[simp] theorem State.tickDevices_iocp : (s.tickDevices).iocp = s.iocp := rfl
@[simp] theorem State.tickDevices_rdr : (s.tickDevices).rdr = s.rdr.tick s.params.family.frameOrder := rfl
@[simp] theorem State.tickDevices_tty : (s.tickDevices).tty = s.tty.tick := rfl
@[simp] theorem State.tickDevices_rtc : (s.tickDevices).rtc = s.rtc.tick s.params.rtcThreshold := rfl
@[simp] theorem State.tickDevices_sink : (s.tickDevices).sink = s.sink := rfl
@[simp] theorem State.tickDevices_diags : (s.tickDevices).diags = s.diags := rfl
@[simp] theorem State.tickDevices_draws : (s.tickDevices).draws = s.draws := rfl

/-! quietCycles -/

@[simp] theorem State.quietCycles_ac (n : Nat) : (State.quietCycles n s).ac = s.ac := rfl
@[simp] theorem State.quietCycles_mb (n : Nat) : (State.quietCycles n s).mb = s.mb := rfl
@[simp] theorem State.quietCycles_mq (n : Nat) : (State.quietCycles n s).mq = s.mq := rfl
@[simp] theorem State.quietCycles_pc (n : Nat) : (State.quietCycles n s).pc = s.pc := rfl
@[simp] theorem State.quietCycles_ma (n : Nat) : (State.quietCycles n s).ma = s.ma := rfl
@[simp] theorem State.quietCycles_ir (n : Nat) : (State.quietCycles n s).ir = s.ir := rfl
@[simp] theorem State.quietCycles_ob (n : Nat) : (State.quietCycles n s).ob = s.ob := rfl
@[simp] theorem State.quietCycles_link (n : Nat) : (State.quietCycles n s).link = s.link := rfl
@[simp] theorem State.quietCycles_zero (n : Nat) : (State.quietCycles n s).zero = s.zero := rfl
@[simp] theorem State.quietCycles_sign (n : Nat) : (State.quietCycles n s).sign = s.sign := rfl
@[simp] theorem State.quietCycles_skip (n : Nat) : (State.quietCycles n s).skip = s.skip := rfl
@[simp] theorem State.quietCycles_stepReg (n : Nat) : (State.quietCycles n s).stepReg = s.stepReg := rfl
@[simp] theorem State.quietCycles_currentWord (n : Nat) : (State.quietCycles n s).currentWord = s.currentWord := rfl
@[simp] theorem State.quietCycles_nextWord (n : Nat) : (State.quietCycles n s).nextWord = s.nextWord := rfl
@[simp] theorem State.quietCycles_params (n : Nat) : (State.quietCycles n s).params = s.params := rfl
@[simp] theorem State.quietCycles_run (n : Nat) : (State.quietCycles n s).run = s.run := rfl
@[simp] theorem State.quietCycles_awaitNeutral (n : Nat) : (State.quietCycles n s).awaitNeutral = s.awaitNeutral := rfl
@[simp] theorem State.quietCycles_xctChain (n : Nat) : (State.quietCycles n s).xctChain = s.xctChain := rfl
@[simp] theorem State.quietCycles_mem (n : Nat) : (State.quietCycles n s).mem = s.mem := rfl
@[simp] theorem State.quietCycles_dataSwitches (n : Nat) : (State.quietCycles n s).dataSwitches = s.dataSwitches := rfl
@[simp] theorem State.quietCycles_addressSwitches (n : Nat) : (State.quietCycles n s).addressSwitches = s.addressSwitches := rfl
@[simp] theorem State.quietCycles_panelCode (n : Nat) : (State.quietCycles n s).panelCode = s.panelCode := rfl
@[simp] theorem State.quietCycles_ion (n : Nat) : (State.quietCycles n s).ion = s.ion := rfl
@[simp] theorem State.quietCycles_iocp (n : Nat) : (State.quietCycles n s).iocp = s.iocp := rfl
@[simp] theorem State.quietCycles_rdr (n : Nat) : (State.quietCycles n s).rdr = (Reader.tick s.params.family.frameOrder)^[n] s.rdr := rfl
@[simp] theorem State.quietCycles_tty (n : Nat) : (State.quietCycles n s).tty = Teleprinter.tick^[n] s.tty := rfl
@[simp] theorem State.quietCycles_drq (n : Nat) : (State.quietCycles n s).drq = s.drq := rfl
@[simp] theorem State.quietCycles_sink (n : Nat) : (State.quietCycles n s).sink = s.sink := rfl
@[simp] theorem State.quietCycles_diags (n : Nat) : (State.quietCycles n s).diags = s.diags := rfl
@[simp] theorem State.quietCycles_draws (n : Nat) : (State.quietCycles n s).draws = s.draws := rfl

/-! settle -/

@[simp] theorem State.settle_ac : (s.settle).ac = s.ac := rfl
@[simp] theorem State.settle_mb : (s.settle).mb = Config.freeMb s.draws := rfl
@[simp] theorem State.settle_mq : (s.settle).mq = s.mq := rfl
@[simp] theorem State.settle_pc : (s.settle).pc = s.pc := rfl
@[simp] theorem State.settle_ma : (s.settle).ma = s.ma := rfl
@[simp] theorem State.settle_ir : (s.settle).ir = s.ir := rfl
@[simp] theorem State.settle_ob : (s.settle).ob = Config.freeOb s.draws := rfl
@[simp] theorem State.settle_link : (s.settle).link = s.link := rfl
@[simp] theorem State.settle_zero : (s.settle).zero = Config.freeZero s.draws := rfl
@[simp] theorem State.settle_sign : (s.settle).sign = Config.freeSign s.draws := rfl
@[simp] theorem State.settle_skip : (s.settle).skip = Config.freeSkip s.draws := rfl
@[simp] theorem State.settle_stepReg : (s.settle).stepReg = s.stepReg := rfl
@[simp] theorem State.settle_currentWord : (s.settle).currentWord = Config.freeCurrent s.draws := rfl
@[simp] theorem State.settle_nextWord : (s.settle).nextWord = Config.freeNext s.draws := rfl
@[simp] theorem State.settle_params : (s.settle).params = s.params := rfl
@[simp] theorem State.settle_run : (s.settle).run = s.run := rfl
@[simp] theorem State.settle_awaitNeutral : (s.settle).awaitNeutral = s.awaitNeutral := rfl
@[simp] theorem State.settle_xctChain : (s.settle).xctChain = s.xctChain := rfl
@[simp] theorem State.settle_mem : (s.settle).mem = s.mem := rfl
@[simp] theorem State.settle_dataSwitches : (s.settle).dataSwitches = s.dataSwitches := rfl
@[simp] theorem State.settle_addressSwitches : (s.settle).addressSwitches = s.addressSwitches := rfl
@[simp] theorem State.settle_panelCode : (s.settle).panelCode = s.panelCode := rfl
@[simp] theorem State.settle_ion : (s.settle).ion = s.ion := rfl
@[simp] theorem State.settle_iocp : (s.settle).iocp = s.iocp := rfl
@[simp] theorem State.settle_rdr : (s.settle).rdr = s.rdr := rfl
@[simp] theorem State.settle_tty : (s.settle).tty = s.tty := rfl
@[simp] theorem State.settle_rtc : (s.settle).rtc = s.rtc := rfl
@[simp] theorem State.settle_drq : (s.settle).drq = s.drq := rfl
@[simp] theorem State.settle_sink : (s.settle).sink = s.sink := rfl
@[simp] theorem State.settle_diags : (s.settle).diags = s.diags := rfl
@[simp] theorem State.settle_draws : (s.settle).draws = s.draws + 1 := rfl

/-! settlePanel -/

@[simp] theorem State.settlePanel_ac : (s.settlePanel).ac = s.ac := rfl
@[simp] theorem State.settlePanel_mb : (s.settlePanel).mb = s.mb := rfl
@[simp] theorem State.settlePanel_mq : (s.settlePanel).mq = s.mq := rfl
@[simp] theorem State.settlePanel_pc : (s.settlePanel).pc = s.pc := rfl
@[simp] theorem State.settlePanel_ma : (s.settlePanel).ma = s.ma := rfl
@[simp] theorem State.settlePanel_ir : (s.settlePanel).ir = s.ir := rfl
@[simp] theorem State.settlePanel_ob : (s.settlePanel).ob = Config.freeOb s.draws := rfl
@[simp] theorem State.settlePanel_link : (s.settlePanel).link = s.link := rfl
@[simp] theorem State.settlePanel_zero : (s.settlePanel).zero = Config.freeZero s.draws := rfl
@[simp] theorem State.settlePanel_sign : (s.settlePanel).sign = Config.freeSign s.draws := rfl
@[simp] theorem State.settlePanel_skip : (s.settlePanel).skip = Config.freeSkip s.draws := rfl
@[simp] theorem State.settlePanel_stepReg : (s.settlePanel).stepReg = s.stepReg := rfl
@[simp] theorem State.settlePanel_currentWord : (s.settlePanel).currentWord = Config.freeCurrent s.draws := rfl
@[simp] theorem State.settlePanel_nextWord : (s.settlePanel).nextWord = Config.freeNext s.draws := rfl
@[simp] theorem State.settlePanel_params : (s.settlePanel).params = s.params := rfl
@[simp] theorem State.settlePanel_run : (s.settlePanel).run = s.run := rfl
@[simp] theorem State.settlePanel_awaitNeutral : (s.settlePanel).awaitNeutral = s.awaitNeutral := rfl
@[simp] theorem State.settlePanel_xctChain : (s.settlePanel).xctChain = s.xctChain := rfl
@[simp] theorem State.settlePanel_mem : (s.settlePanel).mem = s.mem := rfl
@[simp] theorem State.settlePanel_dataSwitches : (s.settlePanel).dataSwitches = s.dataSwitches := rfl
@[simp] theorem State.settlePanel_addressSwitches : (s.settlePanel).addressSwitches = s.addressSwitches := rfl
@[simp] theorem State.settlePanel_panelCode : (s.settlePanel).panelCode = s.panelCode := rfl
@[simp] theorem State.settlePanel_ion : (s.settlePanel).ion = s.ion := rfl
@[simp] theorem State.settlePanel_iocp : (s.settlePanel).iocp = s.iocp := rfl
@[simp] theorem State.settlePanel_rdr : (s.settlePanel).rdr = s.rdr := rfl
@[simp] theorem State.settlePanel_tty : (s.settlePanel).tty = s.tty := rfl
@[simp] theorem State.settlePanel_rtc : (s.settlePanel).rtc = s.rtc := rfl
@[simp] theorem State.settlePanel_drq : (s.settlePanel).drq = s.drq := rfl
@[simp] theorem State.settlePanel_sink : (s.settlePanel).sink = s.sink := rfl
@[simp] theorem State.settlePanel_diags : (s.settlePanel).diags = s.diags := rfl
@[simp] theorem State.settlePanel_draws : (s.settlePanel).draws = s.draws + 1 := rfl

/-! freeMb -/

@[simp] theorem State.freeMb_ac : (s.freeMb).ac = s.ac := rfl
@[simp] theorem State.freeMb_mb : (s.freeMb).mb = Config.freeMb s.draws := rfl
@[simp] theorem State.freeMb_mq : (s.freeMb).mq = s.mq := rfl
@[simp] theorem State.freeMb_pc : (s.freeMb).pc = s.pc := rfl
@[simp] theorem State.freeMb_ma : (s.freeMb).ma = s.ma := rfl
@[simp] theorem State.freeMb_ir : (s.freeMb).ir = s.ir := rfl
@[simp] theorem State.freeMb_ob : (s.freeMb).ob = s.ob := rfl
@[simp] theorem State.freeMb_link : (s.freeMb).link = s.link := rfl
@[simp] theorem State.freeMb_zero : (s.freeMb).zero = s.zero := rfl
@[simp] theorem State.freeMb_sign : (s.freeMb).sign = s.sign := rfl
@[simp] theorem State.freeMb_skip : (s.freeMb).skip = s.skip := rfl
@[simp] theorem State.freeMb_stepReg : (s.freeMb).stepReg = s.stepReg := rfl
@[simp] theorem State.freeMb_currentWord : (s.freeMb).currentWord = s.currentWord := rfl
@[simp] theorem State.freeMb_nextWord : (s.freeMb).nextWord = s.nextWord := rfl
@[simp] theorem State.freeMb_params : (s.freeMb).params = s.params := rfl
@[simp] theorem State.freeMb_run : (s.freeMb).run = s.run := rfl
@[simp] theorem State.freeMb_awaitNeutral : (s.freeMb).awaitNeutral = s.awaitNeutral := rfl
@[simp] theorem State.freeMb_xctChain : (s.freeMb).xctChain = s.xctChain := rfl
@[simp] theorem State.freeMb_mem : (s.freeMb).mem = s.mem := rfl
@[simp] theorem State.freeMb_dataSwitches : (s.freeMb).dataSwitches = s.dataSwitches := rfl
@[simp] theorem State.freeMb_addressSwitches : (s.freeMb).addressSwitches = s.addressSwitches := rfl
@[simp] theorem State.freeMb_panelCode : (s.freeMb).panelCode = s.panelCode := rfl
@[simp] theorem State.freeMb_ion : (s.freeMb).ion = s.ion := rfl
@[simp] theorem State.freeMb_iocp : (s.freeMb).iocp = s.iocp := rfl
@[simp] theorem State.freeMb_rdr : (s.freeMb).rdr = s.rdr := rfl
@[simp] theorem State.freeMb_tty : (s.freeMb).tty = s.tty := rfl
@[simp] theorem State.freeMb_rtc : (s.freeMb).rtc = s.rtc := rfl
@[simp] theorem State.freeMb_drq : (s.freeMb).drq = s.drq := rfl
@[simp] theorem State.freeMb_sink : (s.freeMb).sink = s.sink := rfl
@[simp] theorem State.freeMb_diags : (s.freeMb).diags = s.diags := rfl
@[simp] theorem State.freeMb_draws : (s.freeMb).draws = s.draws := rfl

/-! resetEntry -/

@[simp] theorem State.resetEntry_ac : (s.resetEntry).ac = 0 := rfl
@[simp] theorem State.resetEntry_mb : (s.resetEntry).mb = s.mb := rfl
@[simp] theorem State.resetEntry_mq : (s.resetEntry).mq = 0 := rfl
@[simp] theorem State.resetEntry_pc : (s.resetEntry).pc = 0 := rfl
@[simp] theorem State.resetEntry_ma : (s.resetEntry).ma = 0 := rfl
@[simp] theorem State.resetEntry_ir : (s.resetEntry).ir = s.ir := rfl
@[simp] theorem State.resetEntry_ob : (s.resetEntry).ob = s.ob := rfl
@[simp] theorem State.resetEntry_link : (s.resetEntry).link = s.link := rfl
@[simp] theorem State.resetEntry_zero : (s.resetEntry).zero = s.zero := rfl
@[simp] theorem State.resetEntry_sign : (s.resetEntry).sign = s.sign := rfl
@[simp] theorem State.resetEntry_skip : (s.resetEntry).skip = s.skip := rfl
@[simp] theorem State.resetEntry_stepReg : (s.resetEntry).stepReg = 0 := rfl
@[simp] theorem State.resetEntry_currentWord : (s.resetEntry).currentWord = s.currentWord := rfl
@[simp] theorem State.resetEntry_nextWord : (s.resetEntry).nextWord = s.nextWord := rfl
@[simp] theorem State.resetEntry_params : (s.resetEntry).params = s.params := rfl
@[simp] theorem State.resetEntry_run : (s.resetEntry).run = s.run := rfl
@[simp] theorem State.resetEntry_awaitNeutral : (s.resetEntry).awaitNeutral = s.awaitNeutral := rfl
@[simp] theorem State.resetEntry_xctChain : (s.resetEntry).xctChain = s.xctChain := rfl
@[simp] theorem State.resetEntry_mem : (s.resetEntry).mem = s.mem := rfl
@[simp] theorem State.resetEntry_dataSwitches : (s.resetEntry).dataSwitches = s.dataSwitches := rfl
@[simp] theorem State.resetEntry_addressSwitches : (s.resetEntry).addressSwitches = s.addressSwitches := rfl
@[simp] theorem State.resetEntry_panelCode : (s.resetEntry).panelCode = s.panelCode := rfl
@[simp] theorem State.resetEntry_ion : (s.resetEntry).ion = s.ion := rfl
@[simp] theorem State.resetEntry_iocp : (s.resetEntry).iocp = s.iocp := rfl
@[simp] theorem State.resetEntry_rdr : (s.resetEntry).rdr = s.rdr := rfl
@[simp] theorem State.resetEntry_tty : (s.resetEntry).tty = s.tty := rfl
@[simp] theorem State.resetEntry_rtc : (s.resetEntry).rtc = s.rtc := rfl
@[simp] theorem State.resetEntry_drq : (s.resetEntry).drq = s.drq := rfl
@[simp] theorem State.resetEntry_sink : (s.resetEntry).sink = s.sink := rfl
@[simp] theorem State.resetEntry_diags : (s.resetEntry).diags = s.diags := rfl
@[simp] theorem State.resetEntry_draws : (s.resetEntry).draws = s.draws := rfl

end Sys2Proof.Machine
end

