-- ==== Sys2Proof/Laws/Memory.lean ====
section
/-! SUPPORT. Core memory: a read after a write, and the canonical form (spec 20_memory.md R60, R65, R69). -/

namespace Sys2Proof.Machine

theorem Memory.get_insert (a : Nat) (v : Word) (m : Memory) (c : Nat) (h : ∀ p ∈ m, p.1 ≠ a) :
    Memory.get (Memory.insert a v m) c = if c = a then v else Memory.get m c := by
  induction m with
  | nil => simp [Memory.insert, Memory.get]
  | cons p m ih =>
    obtain ⟨b, u⟩ := p
    have hb : b ≠ a := h (b, u) (by simp)
    have ih := ih fun q hq => h q (by simp [hq])
    by_cases hab : a < b
    · simp [Memory.insert, hab, Memory.get]
    · simp only [Memory.insert, hab, if_false, Memory.get, ih]
      by_cases hcb : c = b
      · simp [hcb, hb]
      · simp [hcb]

theorem Memory.get_filter (a : Nat) (m : Memory) (c : Nat) :
    Memory.get (m.filter (fun p => p.1 != a)) c = if c = a then Memory.unlisted else Memory.get m c := by
  induction m with
  | nil => simp [Memory.get]
  | cons p m ih =>
    obtain ⟨b, u⟩ := p
    by_cases hb : b = a
    · subst hb
      simp only [List.filter, bne_self_eq_false, ih, Memory.get]
      by_cases hc : c = b <;> simp [hc]
    · simp only [List.filter, Memory.get]
      have : (b != a) = true := by simpa using hb
      simp only [this, Memory.get, ih]
      by_cases hcb : c = b
      · simp [hcb, hb]
      · simp [hcb]

/-- A read after a write: the value written there, and every other address as before. -/
theorem Memory.get_set (m : Memory) (a : Nat) (v : Word) (c : Nat) :
    Memory.get (Memory.set m a v) c = if c = a then v else Memory.get m c := by
  unfold Memory.set
  by_cases hv : v = Memory.unlisted
  · simp [hv, Memory.get_filter]
  · simp only [hv, if_false]
    rw [Memory.get_insert _ _ _ _ (by simp), Memory.get_filter]
    by_cases hc : c = a <;> simp [hc]

theorem Memory.read_write (m : Memory) (a : Addr) (v : Word) (c : Addr) :
    (m.write a v).read c = if c = a then v else m.read c := by
  simp [Memory.read, Memory.write, Memory.get_set, BitVec.toNat_inj]

@[simp] theorem Memory.read_write_same (m : Memory) (a : Addr) (v : Word) : (m.write a v).read a = v := by
  simp [Memory.read_write]

theorem Memory.read_write_other (m : Memory) {a c : Addr} (v : Word) (h : c ≠ a) :
    (m.write a v).read c = m.read c := by
  simp [Memory.read_write, h]

@[simp] theorem State.read_write_same (s : State) (a : Addr) (v : Word) : (s.write a v).read a = v := by
  simp [State.read]

theorem State.read_write_other (s : State) {a c : Addr} (v : Word) (h : c ≠ a) :
    (s.write a v).read c = s.read c := by
  simp [State.read, Memory.read_write_other _ _ h]

/-! The canonical form -/

theorem Memory.wf_cons (a : Nat) (v : Word) (m : Memory) :
    Memory.wf ((a, v) :: m) = true ↔
      a < 32768 ∧ v ≠ Memory.unlisted ∧ (∀ p ∈ m, a < p.1) ∧ Memory.wf m = true := by
  simp [Memory.wf, and_assoc]

theorem Memory.wf_filter (f : Nat × Word → Bool) (m : Memory) (h : m.wf = true) : Memory.wf (m.filter f) = true := by
  induction m with
  | nil => rfl
  | cons p m ih =>
    obtain ⟨b, u⟩ := p
    obtain ⟨hb, hu, hlt, hm⟩ := (Memory.wf_cons b u m).1 h
    by_cases hf : f (b, u)
    · simp only [List.filter, hf]
      exact (Memory.wf_cons _ _ _).2 ⟨hb, hu, fun q hq => hlt q (List.mem_of_mem_filter hq), ih hm⟩
    · simp only [List.filter, hf]
      exact ih hm

theorem Memory.mem_insert {a : Nat} {v : Word} {m : Memory} {q : Nat × Word} (h : q ∈ Memory.insert a v m) :
    q = (a, v) ∨ q ∈ m := by
  induction m with
  | nil => simpa [Memory.insert] using h
  | cons p m ih =>
    by_cases hab : a < p.1
    · simpa [Memory.insert, hab] using h
    · simp only [Memory.insert, hab, if_false, List.mem_cons] at h
      rcases h with rfl | h
      · simp
      · rcases ih h with h | h <;> simp [h]

theorem Memory.wf_insert {a : Nat} {v : Word} {m : Memory} (ha : a < 32768) (hv : v ≠ Memory.unlisted)
    (hne : ∀ p ∈ m, p.1 ≠ a) (h : m.wf = true) : (Memory.insert a v m).wf = true := by
  induction m with
  | nil => simp [Memory.insert, Memory.wf, ha, hv]
  | cons p m ih =>
    obtain ⟨b, u⟩ := p
    obtain ⟨hb, hu, hlt, hm⟩ := (Memory.wf_cons b u m).1 h
    have hba : b ≠ a := hne (b, u) (by simp)
    by_cases hab : a < b
    · simp only [Memory.insert, hab, if_true]
      refine (Memory.wf_cons _ _ _).2 ⟨ha, hv, ?_, h⟩
      rintro q (_ | ⟨_, hq⟩)
      · exact hab
      · exact hab.trans (hlt _ hq)
    · simp only [Memory.insert, hab, if_false]
      refine (Memory.wf_cons _ _ _).2 ⟨hb, hu, ?_, ih (fun q hq => hne q (by simp [hq])) hm⟩
      intro q hq
      rcases Memory.mem_insert hq with rfl | hq
      · exact lt_of_le_of_ne (not_lt.1 hab) hba
      · exact hlt q hq

/-- A write keeps the canonical form. -/
theorem Memory.wf_write {m : Memory} (a : Addr) (v : Word) (h : m.wf = true) : (m.write a v).wf = true := by
  unfold Memory.write Memory.set
  have hf := Memory.wf_filter (fun p => p.1 != a.toNat) m h
  by_cases hv : v = Memory.unlisted
  · simpa [hv] using hf
  · simpa only [hv, if_false] using Memory.wf_insert (by have := a.isLt; omega) hv (by simp) hf

theorem Memory.wf_load {m : Memory} (image : List (Addr × Word)) (h : m.wf = true) : (m.load image).wf = true := by
  unfold Memory.load
  induction image generalizing m with
  | nil => exact h
  | cons c l ih => exact ih (Memory.wf_write c.1 c.2 h)

theorem State.reset_mem_wf : State.reset.mem.wf = true := rfl

/-- An address below every listed one reads as an unlisted word. -/
theorem Memory.get_below {m : Memory} {a : Nat} (h : ∀ p ∈ m, a < p.1) : Memory.get m a = Memory.unlisted := by
  induction m with
  | nil => rfl
  | cons p m ih =>
    obtain ⟨b, u⟩ := p
    have hb : a < b := h (b, u) (by simp)
    simp [Memory.get, hb.ne, ih fun q hq => h q (by simp [hq])]

/-- In canonical form, memories that read alike everywhere are equal data. -/
theorem Memory.ext_of_wf {m n : Memory} (hm : m.wf = true) (hn : n.wf = true)
    (h : ∀ a, Memory.get m a = Memory.get n a) : m = n := by
  induction m generalizing n with
  | nil =>
    cases n with
    | nil => rfl
    | cons p n =>
      have hp := (Memory.wf_cons p.1 p.2 n).1 hn
      exact absurd (by simpa [Memory.get] using (h p.1).symm) hp.2.1
  | cons p m ih =>
    obtain ⟨hpb, hpu, hpl, hm'⟩ := (Memory.wf_cons p.1 p.2 m).1 hm
    cases n with
    | nil => exact absurd (by simpa [Memory.get] using h p.1) hpu
    | cons q n =>
      obtain ⟨hqb, hqu, hql, hn'⟩ := (Memory.wf_cons q.1 q.2 n).1 hn
      have hle : ¬ p.1 < q.1 := fun hlt => hpu (by
        have := h p.1
        rw [Memory.get_below (m := q :: n) (by
          rintro r (_ | ⟨_, hr⟩)
          · exact hlt
          · exact hlt.trans (hql r hr))] at this
        simpa [Memory.get] using this)
      have hge : ¬ q.1 < p.1 := fun hlt => hqu (by
        have := h q.1
        rw [Memory.get_below (m := p :: m) (by
          rintro r (_ | ⟨_, hr⟩)
          · exact hlt
          · exact hlt.trans (hpl r hr))] at this
        simpa [Memory.get] using this.symm)
      have hk : p.1 = q.1 := by omega
      have hv : p.2 = q.2 := by simpa [Memory.get, hk] using h p.1
      have ht : m = n := ih hm' hn' fun a => by
        by_cases ha : a = p.1
        · subst ha
          rw [Memory.get_below hpl, Memory.get_below (by simpa [hk] using hql)]
        · have hq : a ≠ q.1 := by omega
          simpa [Memory.get, ha, hq] using h a
      rw [ht, Prod.ext hk hv]

end Sys2Proof.Machine
end

