-- ==== Sys2Proof/Laws/Operands.lean ====
section
/-! SUPPORT. Everything an effective address can do to the state (spec 41_memory_reference.md R140, R141). -/

namespace Sys2Proof.Machine

variable (s : State) (ind : Bool) (y : BitVec 13)

theorem bank_mkAddr (b : BitVec 2) (o : BitVec 13) : bank (mkAddr b o) = b := BitVec.extractLsb'_append_eq_left

theorem offset_mkAddr (b : BitVec 2) (o : BitVec 13) : offset (mkAddr b o) = o := BitVec.extractLsb'_append_eq_right

/-- A non-extended latch preserves the bank (R28). -/
theorem latchAddr_bank (old : Addr) (v : Word) : bank (latchAddr false old v) = bank old := bank_mkAddr _ _

/-- The three ways of an effective address, one equation each. -/
theorem State.resolve_direct : s.resolve false y = { s with ma := s.directAddr y } := rfl

theorem State.resolve_plain (h : s.indexCell true y = none) :
    s.resolve true y = State.indirect { s with ma := s.directAddr y } := by
  simp [State.resolve, h]

theorem State.resolve_auto {cell : Addr} (h : s.indexCell ind y = some cell) :
    s.resolve ind y = State.autoIndexed { s with ma := s.directAddr y } cell := by
  simp [State.resolve, h]

theorem State.resolve_cases :
    s.resolve ind y = { s with ma := s.directAddr y } ∨
      s.resolve ind y = State.indirect { s with ma := s.directAddr y } ∨
      ∃ cell, s.indexCell ind y = some cell ∧
        s.resolve ind y = State.autoIndexed { s with ma := s.directAddr y } cell := by
  cases h : s.indexCell ind y with
  | some cell => exact .inr (.inr ⟨cell, rfl, State.resolve_auto s ind y h⟩)
  | none =>
    cases ind with
    | false => exact .inl rfl
    | true => exact .inr (.inl (State.resolve_plain s y h))

/-- An effective address changes MA, MB, OB, Zero, Sign and core, and nothing else. -/
theorem State.resolve_eq : s.resolve ind y =
    { s with
      ma := (s.resolve ind y).ma
      mb := (s.resolve ind y).mb
      ob := (s.resolve ind y).ob
      zero := (s.resolve ind y).zero
      sign := (s.resolve ind y).sign
      mem := (s.resolve ind y).mem } := by
  rcases State.resolve_cases s ind y with h | h | ⟨c, -, h⟩ <;> rw [h] <;> rfl

/-- The only word of core an effective address changes is the auto-index cell. -/
theorem State.resolve_read {a : Addr} (h : s.indexCell ind y ≠ some a) : (s.resolve ind y).read a = s.read a := by
  rcases State.resolve_cases s ind y with e | e | ⟨c, hc, e⟩
  · rw [e]; rfl
  · rw [e]; rfl
  · rw [e]
    have : a ≠ c := fun hac => h (hac ▸ hc)
    simp [State.read, Memory.read_write_other _ _ this]

/-- The auto-index cell holds its old value plus 1 (R141). -/
theorem State.resolve_read_cell {cell : Addr} (h : s.indexCell ind y = some cell) :
    (s.resolve ind y).read cell = s.read cell + 1 := by
  rw [State.resolve_auto s ind y h]
  simp [State.read]

theorem State.resolve_mem_wf (h : s.mem.wf = true) : (s.resolve ind y).mem.wf = true := by
  rcases State.resolve_cases s ind y with e | e | ⟨c, -, e⟩ <;> rw [e]
  · exact h
  · exact h
  · exact Memory.wf_write _ _ h

/-! The fields an effective address keeps -/

@[simp] theorem State.resolve_ac : (s.resolve ind y).ac = s.ac := by rw [State.resolve_eq]
@[simp] theorem State.resolve_mq : (s.resolve ind y).mq = s.mq := by rw [State.resolve_eq]
@[simp] theorem State.resolve_pc : (s.resolve ind y).pc = s.pc := by rw [State.resolve_eq]
@[simp] theorem State.resolve_ir : (s.resolve ind y).ir = s.ir := by rw [State.resolve_eq]
@[simp] theorem State.resolve_link : (s.resolve ind y).link = s.link := by rw [State.resolve_eq]
@[simp] theorem State.resolve_skip : (s.resolve ind y).skip = s.skip := by rw [State.resolve_eq]
@[simp] theorem State.resolve_stepReg : (s.resolve ind y).stepReg = s.stepReg := by rw [State.resolve_eq]
@[simp] theorem State.resolve_currentWord : (s.resolve ind y).currentWord = s.currentWord := by rw [State.resolve_eq]
@[simp] theorem State.resolve_nextWord : (s.resolve ind y).nextWord = s.nextWord := by rw [State.resolve_eq]
@[simp] theorem State.resolve_params : (s.resolve ind y).params = s.params := by rw [State.resolve_eq]
@[simp] theorem State.resolve_run : (s.resolve ind y).run = s.run := by rw [State.resolve_eq]
@[simp] theorem State.resolve_awaitNeutral : (s.resolve ind y).awaitNeutral = s.awaitNeutral := by rw [State.resolve_eq]
@[simp] theorem State.resolve_xctChain : (s.resolve ind y).xctChain = s.xctChain := by rw [State.resolve_eq]
@[simp] theorem State.resolve_dataSwitches : (s.resolve ind y).dataSwitches = s.dataSwitches := by rw [State.resolve_eq]
@[simp] theorem State.resolve_addressSwitches : (s.resolve ind y).addressSwitches = s.addressSwitches := by rw [State.resolve_eq]
@[simp] theorem State.resolve_panelCode : (s.resolve ind y).panelCode = s.panelCode := by rw [State.resolve_eq]
@[simp] theorem State.resolve_ion : (s.resolve ind y).ion = s.ion := by rw [State.resolve_eq]
@[simp] theorem State.resolve_iocp : (s.resolve ind y).iocp = s.iocp := by rw [State.resolve_eq]
@[simp] theorem State.resolve_rdr : (s.resolve ind y).rdr = s.rdr := by rw [State.resolve_eq]
@[simp] theorem State.resolve_tty : (s.resolve ind y).tty = s.tty := by rw [State.resolve_eq]
@[simp] theorem State.resolve_rtc : (s.resolve ind y).rtc = s.rtc := by rw [State.resolve_eq]
@[simp] theorem State.resolve_drq : (s.resolve ind y).drq = s.drq := by rw [State.resolve_eq]
@[simp] theorem State.resolve_sink : (s.resolve ind y).sink = s.sink := by rw [State.resolve_eq]
@[simp] theorem State.resolve_diags : (s.resolve ind y).diags = s.diags := by rw [State.resolve_eq]
@[simp] theorem State.resolve_draws : (s.resolve ind y).draws = s.draws := by rw [State.resolve_eq]

end Sys2Proof.Machine
end

