-- ==== Sys2Proof/Laws/Exec.lean ====
section
/-! SUPPORT. What the shared operations of the meanings can do: XCT chains, the operate group, IOT (spec 42 R166; 43 R176;
44 R200). -/

namespace Sys2Proof.Machine

theorem andThen_eq_next {o : Result} {f : State → Result} {t : State} :
    andThen o f = .next t ↔ ∃ s, o = .next s ∧ f s = .next t := by
  cases o <;> simp [andThen]

/-! XCT -/

/-- XCT is opcode 8, and nothing else is. -/
theorem isXct_eq_true {i : Instr} : isXct i = true ↔ i.opcode = 8 := by
  cases i <;> simp [isXct, Instr.opcode]

theorem execWith_eq_exec {i : Instr} (h : isXct i = false) (k : State → Result) (s : State) :
    execWith k i s = exec i s := by
  cases i <;> first | rfl | simp [isXct] at h

theorem execChain_eq_exec {i : Instr} (h : isXct i = false) (n : Nat) (s : State) : execChain n i s = exec i s := by
  cases n <;> exact execWith_eq_exec h _ s

/-- One link of a chain inside a step. -/
theorem execChain_succ_xct (n : Nat) (ind : Bool) (y : BitVec 13) (s : State) :
    execChain (n + 1) (.xct ind y) s =
      execChain n (decodeWith (s.xctLink ind y).params.family.layout (s.xctLink ind y).ir) (s.xctLink ind y) := rfl

theorem execChain_zero_xct (ind : Bool) (y : BitVec 13) (s : State) :
    execChain 0 (.xct ind y) s = .next { s.xctLink ind y with xctChain := true } := rfl

theorem exec_xct (ind : Bool) (y : BitVec 13) (s : State) :
    exec (.xct ind y) s = execChain chainLinks (.xct ind y) s := rfl

/-- An XCT whose target is no XCT is the execution of its target after one link (R166). -/
theorem exec_xct_of_target {s : State} {ind : Bool} {y : BitVec 13}
    (h : isXct (decodeWith (s.xctLink ind y).params.family.layout (s.xctLink ind y).ir) = false) :
    exec (.xct ind y) s
      = exec (decodeWith (s.xctLink ind y).params.family.layout (s.xctLink ind y).ir) (s.xctLink ind y) := by
  rw [exec_xct, chainLinks, execChain_succ_xct, execChain_eq_exec h]

/-- What holds of every instruction but XCT, of a link and of leaving a chain in progress, holds of every instruction. -/
theorem exec_induction (P : State → State → Prop) (trans : ∀ {a b c}, P a b → P b c → P a c)
    (link : ∀ s ind y, P s (s.xctLink ind y)) (pending : ∀ s, P s { s with xctChain := true })
    (base : ∀ {i s t}, isXct i = false → exec i s = .next t → P s t) {i : Instr} {s t : State}
    (h : exec i s = .next t) : P s t := by
  have chain : ∀ n i s, execChain n i s = .next t → P s t := by
    intro n
    induction n with
    | zero =>
      intro i s h
      cases i with
      | xct ind y =>
        rw [execChain_zero_xct] at h
        cases h
        exact trans (link s ind y) (pending _)
      | _ => exact base rfl (by rw [← h]; exact (execChain_eq_exec rfl 0 s).symm)
    | succ n ih =>
      intro i s h
      cases i with
      | xct ind y =>
        rw [execChain_succ_xct] at h
        exact trans (link s ind y) (ih _ _ h)
      | _ => exact base rfl (by rw [← h]; exact (execChain_eq_exec rfl (n + 1) s).symm)
  cases hx : isXct i with
  | false => exact base hx h
  | true =>
    cases i with
    | xct ind y => exact chain chainLinks (.xct ind y) s h
    | _ => simp [isXct] at hx

/-! The operate group -/

theorem oprGroup_eq_next {b : OprBits} {s t : State} :
    oprGroup b s = .next t ↔ oprRefusal b = none ∧ t = oprEffect b s := by
  unfold oprGroup
  cases oprRefusal b with
  | none => simp [eq_comm]
  | some r => simp

/-- The operate words that have a meaning (R89). -/
theorem oprRefusal_eq_none {b : OprBits} : oprRefusal b = none ↔
    b.bit13 = false ∧ ¬ (b.ral = true ∧ b.rar = true) ∧ ¬ (b.oas = true ∧ (b.ral = true ∨ b.rar = true)) := by
  unfold oprRefusal
  cases b.bit13 <;> cases b.ral <;> cases b.rar <;> cases b.oas <;> simp

/-- An operate word changes AC, Link, PC and RUN, and nothing else. -/
theorem oprEffect_eq (b : OprBits) (s : State) : oprEffect b s =
    { s with
      ac := (oprEffect b s).ac
      link := (oprEffect b s).link
      pc := (oprEffect b s).pc
      run := (oprEffect b s).run } := by
  unfold oprEffect
  cases b.hlt <;> rfl

theorem oprEffect_run (b : OprBits) (s : State) : (oprEffect b s).run = if b.hlt then .halted .hlt else s.run := by
  unfold oprEffect
  cases b.hlt <;> rfl

theorem oprEffect_pc (b : OprBits) (s : State) : (oprEffect b s).pc = s.pc ∨ (oprEffect b s).pc = inc s.params s.pc := by
  unfold oprEffect
  cases b.hlt <;> simp only [State.halt_pc, State.skipIf_pc, if_true, if_false, Bool.false_eq_true] <;> split <;> simp

/-! IOT -/

theorem State.pulseIf_eq (s : State) (d : Device) (sub : BitVec 2) (pulse : BitVec 3) (p : Pulse) :
    s.pulseIf d sub pulse p =
      { s with
        iocp := (s.pulseIf d sub pulse p).iocp
        rdr := (s.pulseIf d sub pulse p).rdr
        tty := (s.pulseIf d sub pulse p).tty
        rtc := (s.pulseIf d sub pulse p).rtc
        sink := (s.pulseIf d sub pulse p).sink } := by
  unfold State.pulseIf
  split
  · cases p <;> cases d <;> rfl
  · rfl

/-- Pulses change the acknowledge, the devices and the sink, and nothing else, in whatever order they act. -/
theorem State.pulses_eq (d : Device) (sub : BitVec 2) (pulse : BitVec 3) (l : List Pulse) (s : State) :
    let t := l.foldl (fun t p => t.pulseIf d sub pulse p) s
    t = { s with iocp := t.iocp, rdr := t.rdr, tty := t.tty, rtc := t.rtc, sink := t.sink } := by
  induction l generalizing s with
  | nil => rfl
  | cons p l ih =>
    have one := State.pulseIf_eq s d sub pulse p
    rw [List.foldl_cons]
    refine (ih _).trans ?_
    generalize s.pulseIf d sub pulse p = u at one ⊢
    rw [one]

theorem State.pulse_eq (s : State) (d : Device) (sub : BitVec 2) (p : BitVec 3) : s.pulse d sub p =
    { s with
      iocp := (s.pulse d sub p).iocp
      rdr := (s.pulse d sub p).rdr
      tty := (s.pulse d sub p).tty
      rtc := (s.pulse d sub p).rtc
      sink := (s.pulse d sub p).sink } := State.pulses_eq d sub p _ _

/-- A coprocessor's action changes its own state, the devices, the sink and the diagnostics, and nothing else. -/
theorem State.iocpPerform_eq (s : State) (dev : BitVec 6) (sub : BitVec 2) (p : BitVec 3) :
    s.iocpPerform dev sub p =
      { s with
        iocp := (s.iocpPerform dev sub p).iocp
        rdr := (s.iocpPerform dev sub p).rdr
        tty := (s.iocpPerform dev sub p).tty
        rtc := (s.iocpPerform dev sub p).rtc
        sink := (s.iocpPerform dev sub p).sink
        diags := (s.iocpPerform dev sub p).diags } := by
  unfold State.iocpPerform
  cases deviceOf dev with
  | none => rfl
  | some d =>
    show s.pulse d sub p = { s with
      iocp := (s.pulse d sub p).iocp
      rdr := (s.pulse d sub p).rdr
      tty := (s.pulse d sub p).tty
      rtc := (s.pulse d sub p).rtc
      sink := (s.pulse d sub p).sink
      diags := (s.pulse d sub p).diags }
    have h := State.pulse_eq s d sub p
    generalize s.pulse d sub p = t at h ⊢
    rw [h]

/-- The state an IOT leaves. -/
def iotEffect (b : IotBits) (s : State) : State :=
  ((if b.cla then { s with ac := 0 } else s).iocpRequest.iocpPerform b.dev b.sub b.pulse).takeAck

theorem iotTransfer_eq (b : IotBits) (s : State) : iotTransfer b s = .next (iotEffect b s) := rfl

/-- An IOT changes AC, PC, the devices, the sink and the diagnostics, leaves the coprocessor at rest, and changes nothing
else. -/
theorem iotEffect_eq (b : IotBits) (s : State) : iotEffect b s =
    { s with
      ac := (iotEffect b s).ac
      pc := (iotEffect b s).pc
      iocp := {}
      rdr := (iotEffect b s).rdr
      tty := (iotEffect b s).tty
      rtc := (iotEffect b s).rtc
      sink := (iotEffect b s).sink
      diags := (iotEffect b s).diags } := by
  unfold iotEffect State.takeAck
  rw [State.iocpPerform_eq]
  cases b.cla <;> rfl

/-- An IOT to an id that no device has (R208). -/
theorem State.iocpPerform_unknown {s : State} {dev : BitVec 6} (h : deviceOf dev = none) (sub : BitVec 2)
    (p : BitVec 3) :
    s.iocpPerform dev sub p = { s.log (.unknownDevice dev) with iocp := { ack := true, reqPrev := true } } := by
  simp [State.iocpPerform, h]

theorem State.iocpPerform_known {s : State} {dev : BitVec 6} {d : Device} (h : deviceOf dev = some d)
    (sub : BitVec 2) (p : BitVec 3) : s.iocpPerform dev sub p = s.pulse d sub p := by
  simp [State.iocpPerform, h]

theorem deviceOf_eq_none {dev : BitVec 6} : deviceOf dev = none ↔ dev ≠ 0 ∧ dev ≠ 1 ∧ dev ≠ 4 := by
  unfold deviceOf
  split <;> [simp_all; skip]
  split <;> [simp_all; skip]
  split <;> simp_all

/-! What an instruction other than XCT can do -/

/-- An instruction of the operate group does what its bits say. -/
theorem exec_opr_cases {i : Instr} {s t : State} (ho : i.opcode = 15) (h : exec i s = .next t) :
    ∃ b, oprRefusal b = none ∧ t = oprEffect b s := by
  cases i with
  | opr b => exact ⟨b, oprGroup_eq_next.1 h⟩
  | nop => exact ⟨_, oprGroup_eq_next (b := {}) |>.1 h⟩
  | cma => exact ⟨_, oprGroup_eq_next (b := { cma := true }) |>.1 h⟩
  | cml => exact ⟨_, oprGroup_eq_next (b := { cml := true }) |>.1 h⟩
  | oas => exact ⟨_, oprGroup_eq_next (b := { oas := true }) |>.1 h⟩
  | ral => exact ⟨_, oprGroup_eq_next (b := { ral := true }) |>.1 h⟩
  | rar => exact ⟨_, oprGroup_eq_next (b := { rar := true }) |>.1 h⟩
  | hlt => exact ⟨_, oprGroup_eq_next (b := { hlt := true }) |>.1 h⟩
  | sma => exact ⟨_, oprGroup_eq_next (b := { sma := true }) |>.1 h⟩
  | sza => exact ⟨_, oprGroup_eq_next (b := { sza := true }) |>.1 h⟩
  | snl => exact ⟨_, oprGroup_eq_next (b := { snl := true }) |>.1 h⟩
  | skp => exact ⟨_, oprGroup_eq_next (b := { pol := true }) |>.1 h⟩
  | spa => exact ⟨_, oprGroup_eq_next (b := { pol := true, sma := true }) |>.1 h⟩
  | sna => exact ⟨_, oprGroup_eq_next (b := { pol := true, sza := true }) |>.1 h⟩
  | szl => exact ⟨_, oprGroup_eq_next (b := { pol := true, snl := true }) |>.1 h⟩
  | rtl => exact ⟨_, oprGroup_eq_next (b := { arot := true, ral := true }) |>.1 h⟩
  | rtr => exact ⟨_, oprGroup_eq_next (b := { arot := true, rar := true }) |>.1 h⟩
  | cll => exact ⟨_, oprGroup_eq_next (b := { cll := true }) |>.1 h⟩
  | stl => exact ⟨_, oprGroup_eq_next (b := { cll := true, cml := true }) |>.1 h⟩
  | cla => exact ⟨_, oprGroup_eq_next (b := { cla := true }) |>.1 h⟩
  | clc => exact ⟨_, oprGroup_eq_next (b := { cla := true, cma := true }) |>.1 h⟩
  | las => exact ⟨_, oprGroup_eq_next (b := { cla := true, oas := true }) |>.1 h⟩
  | glk => exact ⟨_, oprGroup_eq_next (b := { cla := true, ral := true }) |>.1 h⟩
  | claCll => exact ⟨_, oprGroup_eq_next (b := { cla := true, cll := true }) |>.1 h⟩
  | _ => simp [Instr.opcode] at ho

/-- An IOT instruction does what its fields say. -/
theorem exec_iot_cases {i : Instr} {s t : State} (ho : i.opcode = 14) (h : exec i s = .next t) :
    ∃ b, t = iotEffect b s := by
  cases i with
  | iot ign b => cases h; exact ⟨b, rfl⟩
  | clsf ign => cases h; exact ⟨{ dev := 0, pulse := 1 }, rfl⟩
  | clof ign => cases h; exact ⟨{ dev := 0, pulse := 4 }, rfl⟩
  | clon ign => cases h; exact ⟨{ dev := 0, sub := 2, pulse := 4 }, rfl⟩
  | rsf ign => cases h; exact ⟨{ dev := 1, pulse := 1 }, rfl⟩
  | rcf ign => cases h; exact ⟨{ dev := 1, pulse := 2 }, rfl⟩
  | rrb ign => cases h; exact ⟨{ dev := 1, cla := true, pulse := 2 }, rfl⟩
  | rsa ign => cases h; exact ⟨{ dev := 1, pulse := 4 }, rfl⟩
  | rsb ign => cases h; exact ⟨{ dev := 1, sub := 2, pulse := 4 }, rfl⟩
  | tsf ign => cases h; exact ⟨{ dev := 4, pulse := 1 }, rfl⟩
  | tcf ign => cases h; exact ⟨{ dev := 4, pulse := 2 }, rfl⟩
  | tls ign => cases h; exact ⟨{ dev := 4, pulse := 6 }, rfl⟩
  | _ => simp [Instr.opcode] at ho

/-- The next state of an instruction other than XCT, by its opcode: everything exec can answer. -/
theorem exec_cases {i : Instr} {s t : State} (hx : isXct i = false) (h : exec i s = .next t) :
    (i.opcode = 15 ∧ ∃ b, oprRefusal b = none ∧ t = oprEffect b s) ∨
    (i.opcode = 14 ∧ ∃ b, t = iotEffect b s) ∨
    (i.opcode = 13 ∧ t = (s.log (.notImplemented s.ir)).halt .notImplemented) ∨
    ∃ ind y, let e := s.resolve ind y
      ((i = .dac ind y ∨ i = .dzm ind y) ∧ ∃ v, t = e.write e.ma v) ∨
      (i = .jms ind y ∧
        t = { ({ e with mb := addrWord e.pc }.latchOb (addrWord e.pc)).write e.ma (addrWord e.pc) with pc := e.ma + 1 }) ∨
      (i = .jmp ind y ∧ ∃ a, t = { e with pc := a, rtc := { e.rtc with flag := !ind && e.rtc.flag } }) ∨
      (i = .isz ind y ∧ ∃ v c, t = ((e.write e.ma v).latchOb v).skipIf c) ∨
      (i = .sad ind y ∧ ∃ d c, t = (e.latchOb d).skipIf c) ∨
      ((i = .lac ind y ∨ i = .xor ind y ∨ i = .and ind y) ∧ ∃ a, t = { e with ac := a }) ∨
      ((i = .add ind y ∨ i = .tad ind y) ∧ ∃ a l, t = { e with ac := a, link := l }) := by
  by_cases h15 : i.opcode = 15
  · exact .inl ⟨h15, exec_opr_cases h15 h⟩
  by_cases h14 : i.opcode = 14
  · exact .inr (.inl ⟨h14, exec_iot_cases h14 h⟩)
  refine .inr (.inr ?_)
  cases i with
  | cal => cases h
  | xct => simp [isXct] at hx
  | eae => cases h; exact .inl ⟨rfl, rfl⟩
  | dac ind y => cases h; exact .inr ⟨ind, y, .inl ⟨.inl rfl, _, rfl⟩⟩
  | dzm ind y => cases h; exact .inr ⟨ind, y, .inl ⟨.inr rfl, _, rfl⟩⟩
  | jms ind y => cases h; exact .inr ⟨ind, y, .inr (.inl ⟨rfl, rfl⟩)⟩
  | jmp ind y => cases ind <;> cases h <;> exact .inr ⟨_, y, .inr (.inr (.inl ⟨rfl, _, rfl⟩))⟩
  | isz ind y => cases h; exact .inr ⟨ind, y, .inr (.inr (.inr (.inl ⟨rfl, _, _, rfl⟩)))⟩
  | sad ind y => cases h; exact .inr ⟨ind, y, .inr (.inr (.inr (.inr (.inl ⟨rfl, _, _, rfl⟩))))⟩
  | lac ind y => cases h; exact .inr ⟨ind, y, .inr (.inr (.inr (.inr (.inr (.inl ⟨.inl rfl, _, rfl⟩)))))⟩
  | xor ind y => cases h; exact .inr ⟨ind, y, .inr (.inr (.inr (.inr (.inr (.inl ⟨.inr (.inl rfl), _, rfl⟩)))))⟩
  | and ind y => cases h; exact .inr ⟨ind, y, .inr (.inr (.inr (.inr (.inr (.inl ⟨.inr (.inr rfl), _, rfl⟩)))))⟩
  | add ind y => cases h; exact .inr ⟨ind, y, .inr (.inr (.inr (.inr (.inr (.inr ⟨.inl rfl, _, _, rfl⟩)))))⟩
  | tad ind y => cases h; exact .inr ⟨ind, y, .inr (.inr (.inr (.inr (.inr (.inr ⟨.inr rfl, _, _, rfl⟩)))))⟩
  | _ => first
    | exact absurd rfl h14
    | exact absurd rfl h15

/-! Link of a chain -/

theorem State.xctLink_eq (s : State) (ind : Bool) (y : BitVec 13) : s.xctLink ind y =
    { s.resolve ind y with ir := (s.xctLink ind y).ir, ma := (s.xctLink ind y).ma } := rfl

theorem State.xctLink_ir (s : State) (ind : Bool) (y : BitVec 13) :
    (s.xctLink ind y).ir = (s.resolve ind y).read (s.resolve ind y).ma := rfl

/-- With the spec's transfer, a link loads IR and MA as `loadIr` does (R166). -/
theorem State.xctLink_ofPc {s : State} (h : s.params.family.transfers.xctBank = .ofPc) (ind : Bool) (y : BitVec 13) :
    s.xctLink ind y = (s.resolve ind y).loadIr ((s.resolve ind y).read (s.resolve ind y).ma) := by
  simp [State.xctLink, targetBank, State.loadIr, h]

end Sys2Proof.Machine
end

