-- ==== Sys2Proof/Laws/Iot.lean ====
section
/-! SUPPORT. Everything the pulses of an IOT do to the devices and the acknowledge (spec 44_iot_coprocessor_devices.md R203 to
R206), in every order of the pulses; the order shows in the skip signal alone. -/

namespace Sys2Proof.Machine

variable (s : State) (d : Device) (sub : BitVec 2) (pulse : BitVec 3) (p : Pulse)

/-! One pulse -/

@[simp] theorem State.pulseIf_params : (s.pulseIf d sub pulse p).params = s.params := by rw [State.pulseIf_eq]

@[simp] theorem State.pulseIf_ac : (s.pulseIf d sub pulse p).ac = s.ac := by rw [State.pulseIf_eq]

@[simp] theorem State.pulseIf_rdr_test : (s.pulseIf d sub pulse .test).rdr = s.rdr := by
  unfold State.pulseIf; split <;> rfl

@[simp] theorem State.pulseIf_tty_test : (s.pulseIf d sub pulse .test).tty = s.tty := by
  unfold State.pulseIf; split <;> rfl

@[simp] theorem State.pulseIf_rtc_test : (s.pulseIf d sub pulse .test).rtc = s.rtc := by
  unfold State.pulseIf; split <;> rfl

@[simp] theorem State.pulseIf_sink_test : (s.pulseIf d sub pulse .test).sink = s.sink := by
  unfold State.pulseIf; split <;> rfl

@[simp] theorem State.pulseIf_iocp_test : (s.pulseIf d sub pulse .test).iocp
    = { s.iocp with skip := if pulse.getLsbD 0 then s.ready d else s.iocp.skip } := by
  simp only [State.pulseIf, Pulse.bit]; cases pulse.getLsbD 0 <;> rfl

@[simp] theorem State.pulseIf_rdr_clear : (s.pulseIf d sub pulse .clear).rdr
    = { s.rdr with flag := s.rdr.flag && !(pulse.getLsbD 1 && decide (d = .reader)) } := by
  simp only [State.pulseIf, Pulse.bit]
  cases pulse.getLsbD 1 <;> cases d <;> simp [State.onePulse, State.deliver, State.clearReady]

@[simp] theorem State.pulseIf_tty_clear : (s.pulseIf d sub pulse .clear).tty
    = { s.tty with flag := s.tty.flag && !(pulse.getLsbD 1 && decide (d = .teleprinter)) } := by
  simp only [State.pulseIf, Pulse.bit]
  cases pulse.getLsbD 1 <;> cases d <;> simp [State.onePulse, State.deliver, State.clearReady]

@[simp] theorem State.pulseIf_rtc_clear : (s.pulseIf d sub pulse .clear).rtc
    = { s.rtc with flag := s.rtc.flag && !(pulse.getLsbD 1 && decide (d = .clock)) } := by
  simp only [State.pulseIf, Pulse.bit]
  cases pulse.getLsbD 1 <;> cases d <;> simp [State.onePulse, State.deliver, State.clearReady]

@[simp] theorem State.pulseIf_sink_clear : (s.pulseIf d sub pulse .clear).sink = s.sink := by
  unfold State.pulseIf; split <;> cases d <;> rfl

@[simp] theorem State.pulseIf_iocp_clear : (s.pulseIf d sub pulse .clear).iocp =
    if pulse.getLsbD 1 && decide (d = .reader) then { s.iocp with wbValid := true, wb := s.rdr.buf } else s.iocp := by
  simp only [State.pulseIf, Pulse.bit]; cases pulse.getLsbD 1 <;> cases d <;> rfl

@[simp] theorem State.pulseIf_rdr_start : (s.pulseIf d sub pulse .start).rdr =
    if pulse.getLsbD 2 && decide (d = .reader) then s.rdr.start (sub.getLsbD s.params.family.modeBit) else s.rdr := by
  simp only [State.pulseIf, Pulse.bit]; cases pulse.getLsbD 2 <;> cases d <;> rfl

@[simp] theorem State.pulseIf_tty_start : (s.pulseIf d sub pulse .start).tty =
    if pulse.getLsbD 2 && decide (d = .teleprinter) then s.tty.print (s.ac.extractLsb' 0 8) else s.tty := by
  simp only [State.pulseIf, Pulse.bit]; cases pulse.getLsbD 2 <;> cases d <;> rfl

@[simp] theorem State.pulseIf_rtc_start : (s.pulseIf d sub pulse .start).rtc =
    if pulse.getLsbD 2 && decide (d = .clock) then s.rtc.start (sub.getLsbD s.params.family.modeBit) else s.rtc := by
  simp only [State.pulseIf, Pulse.bit]; cases pulse.getLsbD 2 <;> cases d <;> rfl

@[simp] theorem State.pulseIf_sink_start : (s.pulseIf d sub pulse .start).sink =
    if pulse.getLsbD 2 && decide (d = .teleprinter) then s.sink ++ [s.ac.extractLsb' 0 8] else s.sink := by
  simp only [State.pulseIf, Pulse.bit]; cases pulse.getLsbD 2 <;> cases d <;> rfl

@[simp] theorem State.pulseIf_iocp_start : (s.pulseIf d sub pulse .start).iocp = s.iocp := by
  unfold State.pulseIf; split <;> cases d <;> rfl

/-! All the pulses -/

theorem State.pulse_rdr : (s.pulse d sub pulse).rdr =
    { (if pulse.getLsbD 2 && decide (d = .reader) then s.rdr.start (sub.getLsbD s.params.family.modeBit) else s.rdr) with
      flag := s.rdr.flag && !(pulse.getLsbD 1 && decide (d = .reader)) } := by
  unfold State.pulse
  cases s.params.family.pulseOrder <;> simp [PulseOrder.list, Reader.start] <;> split <;> simp

theorem State.pulse_rtc : (s.pulse d sub pulse).rtc =
    { (if pulse.getLsbD 2 && decide (d = .clock) then s.rtc.start (sub.getLsbD s.params.family.modeBit) else s.rtc) with
      flag := s.rtc.flag && !(pulse.getLsbD 1 && decide (d = .clock)) } := by
  unfold State.pulse
  cases s.params.family.pulseOrder <;> simp [PulseOrder.list, Clock.start] <;> split <;> simp

theorem State.pulse_tty : (s.pulse d sub pulse).tty =
    if pulse.getLsbD 2 && decide (d = .teleprinter) then s.tty.print (s.ac.extractLsb' 0 8)
    else { s.tty with flag := s.tty.flag && !(pulse.getLsbD 1 && decide (d = .teleprinter)) } := by
  unfold State.pulse
  cases s.params.family.pulseOrder <;> simp [PulseOrder.list, Teleprinter.print] <;> split <;> simp

theorem State.pulse_sink : (s.pulse d sub pulse).sink =
    if pulse.getLsbD 2 && decide (d = .teleprinter) then s.sink ++ [s.ac.extractLsb' 0 8] else s.sink := by
  unfold State.pulse
  cases s.params.family.pulseOrder <;> simp [PulseOrder.list]

/-- The acknowledge carries the reader's word, which no pulse changes. -/
theorem State.pulse_wb : (s.pulse d sub pulse).iocp.wbValid = (pulse.getLsbD 1 && decide (d = .reader)) ∧
    ((s.pulse d sub pulse).iocp.wbValid = true → (s.pulse d sub pulse).iocp.wb = s.rdr.buf) := by
  unfold State.pulse
  cases s.params.family.pulseOrder <;> simp [PulseOrder.list, Reader.start] <;> split <;> simp_all <;> split <;> rfl

/-- With the test first, as R203 has it, the skip signal is the flag of before. -/
theorem State.pulse_skip (h : s.params.family.pulseOrder = .testClearStart) :
    (s.pulse d sub pulse).iocp.skip = (pulse.getLsbD 0 && s.ready d) := by
  unfold State.pulse
  rw [h]
  simp only [PulseOrder.list, List.foldl, State.pulseIf_iocp_start, State.pulseIf_iocp_clear, State.pulseIf_iocp_test]
  split <;> cases pulse.getLsbD 0 <;> rfl

/-! A whole IOT -/

/-- The state in which the coprocessor acts: the optional clear done and the request seen. -/
theorem iot_begun (b : IotBits) : (if b.cla then { s with ac := 0 } else s).iocpRequest =
    { s with ac := if b.cla then 0 else s.ac, iocp := { busy := true, reqPrev := true } } := by
  cases b.cla <;> rfl

/-- What an IOT to a device does to the devices, the sink and the diagnostics. -/
theorem iotEffect_known {b : IotBits} {d : Device} (h : deviceOf b.dev = some d) :
    (iotEffect b s).rdr =
      { (if b.pulse.getLsbD 2 && decide (d = .reader) then s.rdr.start (b.sub.getLsbD s.params.family.modeBit)
          else s.rdr) with flag := s.rdr.flag && !(b.pulse.getLsbD 1 && decide (d = .reader)) } ∧
    (iotEffect b s).tty =
      (if b.pulse.getLsbD 2 && decide (d = .teleprinter) then
        s.tty.print ((if b.cla then 0 else s.ac : Word).extractLsb' 0 8)
      else { s.tty with flag := s.tty.flag && !(b.pulse.getLsbD 1 && decide (d = .teleprinter)) }) ∧
    (iotEffect b s).rtc =
      { (if b.pulse.getLsbD 2 && decide (d = .clock) then s.rtc.start (b.sub.getLsbD s.params.family.modeBit)
          else s.rtc) with flag := s.rtc.flag && !(b.pulse.getLsbD 1 && decide (d = .clock)) } ∧
    (iotEffect b s).sink =
      (if b.pulse.getLsbD 2 && decide (d = .teleprinter) then
        s.sink ++ [(if b.cla then 0 else s.ac : Word).extractLsb' 0 8] else s.sink) ∧
    (iotEffect b s).diags = s.diags := by
  unfold iotEffect
  rw [iot_begun, State.iocpPerform_known h]
  refine ⟨?_, ?_, ?_, ?_, ?_⟩
  · rw [State.takeAck_rdr, State.pulse_rdr]
  · rw [State.takeAck_tty, State.pulse_tty]
  · rw [State.takeAck_rtc, State.pulse_rtc]
  · rw [State.takeAck_sink, State.pulse_sink]
  · rw [State.takeAck_diags, State.pulse_eq]

/-- An IOT to an id that no device has changes no device and emits nothing; it logs once (R208). -/
theorem iotEffect_unknown {b : IotBits} (h : deviceOf b.dev = none) :
    (iotEffect b s).rdr = s.rdr ∧ (iotEffect b s).tty = s.tty ∧ (iotEffect b s).rtc = s.rtc ∧
    (iotEffect b s).sink = s.sink ∧ (iotEffect b s).diags = s.diags ++ [.unknownDevice b.dev] := by
  unfold iotEffect
  rw [iot_begun, State.iocpPerform_unknown h]
  refine ⟨?_, ?_, ?_, ?_, ?_⟩ <;> simp

end Sys2Proof.Machine
end

