-- ==== Sys2Proof/Laws/Devices.lean ====
section
/-! SUPPORT. What a tick, a cycle and an advance of cycles can do (spec 44_iot_coprocessor_devices.md R222 to R244; 40
R101). -/

namespace Sys2Proof.Machine

/-! One cycle and many -/

theorem State.cycle_eq_next {s t : State} (h : s.cycle = .next t) : t = s.tickDevices ∧ t.drq.grant = 0 := by
  unfold State.cycle at h
  split at h
  · cases h
  · split at h
    · cases h; exact ⟨rfl, ‹_›⟩
    · cases h

theorem State.cycles_succ {n : Nat} {s t : State} (h : s.cycles (n + 1) = .next t) :
    s.cycle = .next s.tickDevices ∧ s.tickDevices.cycles n = .next t := by
  obtain ⟨u, hu, ht⟩ := andThen_eq_next.1 h
  have := (State.cycle_eq_next hu).1
  subst this
  exact ⟨hu, ht⟩

/-- What holds of no tick and is kept by each tick that is not refused holds after any number of cycles. -/
theorem State.cycles_induction (P : State → Prop)
    (tick : ∀ {s}, P s → s.cycle = .next s.tickDevices → P s.tickDevices) {n : Nat} {s t : State} (hs : P s)
    (h : s.cycles n = .next t) : P t := by
  induction n generalizing s with
  | zero => cases h; exact hs
  | succ n ih =>
    obtain ⟨hc, hr⟩ := State.cycles_succ h
    exact ih (tick hs hc) hr

/-! The quiet case -/

theorem Drq.evaluate_quiet {d : Drq} (hr : d.req = 0) (ho : d.outstanding = false) : d.evaluate = d := by
  have : d.lowest = none := by
    unfold Drq.lowest
    rw [hr]
    rfl
  simp [Drq.evaluate, ho, this]

/-- A cycle in which no DRQ request is pending or arises: each device ticks, and nothing else changes. -/
theorem State.cycle_next {s : State} (hr : s.drq.req = 0) (hg : s.drq.grant = 0) (ho : s.drq.outstanding = false)
    (hc : (s.rtc.expires s.params.rtcThreshold && s.rtc.enable) = false) : s.cycle = .next { s with
      rdr := s.rdr.tick s.params.family.frameOrder
      tty := s.tty.tick
      rtc := s.rtc.tick s.params.rtcThreshold } := by
  have ht : s.tickDevices = { s with
      rdr := s.rdr.tick s.params.family.frameOrder, tty := s.tty.tick, rtc := s.rtc.tick s.params.rtcThreshold } := by
    simp [State.tickDevices, hc, Drq.evaluate_quiet hr ho]
  simp [State.cycle, ht, hg]

theorem State.quiet_cycle {s : State} (h : s.drqQuiet = true) :
    s.cycle = .next (s.quietCycles 1) ∧ (s.quietCycles 1).drqQuiet = true := by
  simp only [State.drqQuiet, Bool.and_eq_true, Bool.not_eq_true', decide_eq_true_eq] at h
  obtain ⟨⟨⟨he, hr⟩, hg⟩, ho⟩ := h
  refine ⟨?_, by simp [State.drqQuiet, State.quietCycles, he, hr, hg, ho]⟩
  rw [State.cycle_next hr hg ho (by simp [he])]
  simp [State.quietCycles, Clock.tick, he]

theorem State.quietCycles_quietCycles (m n : Nat) (s : State) :
    State.quietCycles n (State.quietCycles m s) = State.quietCycles (m + n) s := by
  simp only [State.quietCycles, ← Function.iterate_add_apply, Nat.add_comm]

/-- The quiet case of `advance` agrees with the cycles one after another. -/
theorem State.advance_eq_cycles (n : Nat) (s : State) : s.advance n = s.cycles n := by
  unfold State.advance
  by_cases h : s.drqQuiet = true
  · rw [if_pos h]
    induction n generalizing s with
    | zero => rfl
    | succ n ih =>
      obtain ⟨hc, hq⟩ := State.quiet_cycle h
      unfold State.cycles
      rw [hc]
      show _ = State.cycles n (s.quietCycles 1)
      rw [← ih _ hq, State.quietCycles_quietCycles, Nat.add_comm]
  · rw [if_neg h]

/-- Cycles change the devices and the arbiter, and nothing else. -/
theorem State.cycles_eq {n : Nat} {s t : State} (h : s.cycles n = .next t) :
    t = { s with rdr := t.rdr, tty := t.tty, rtc := t.rtc, drq := t.drq } := by
  refine State.cycles_induction (fun t => t = { s with rdr := t.rdr, tty := t.tty, rtc := t.rtc, drq := t.drq }) ?_ rfl h
  intro u hu _
  rw [hu]
  rfl

theorem State.advance_eq {n : Nat} {s t : State} (h : s.advance n = .next t) :
    t = { s with rdr := t.rdr, tty := t.tty, rtc := t.rtc, drq := t.drq } :=
  State.cycles_eq (by rwa [State.advance_eq_cycles] at h)

theorem State.advance_quiet {n : Nat} {s : State} (h : s.drqQuiet = true) : s.advance n = .next (s.quietCycles n) := by
  simp [State.advance, h]

/-! Requests -/

/-- With no grant outstanding, an evaluation that sees the clock's request ends in a grant (R241). -/
theorem Drq.evaluate_request {d : Drq} (ho : d.outstanding = false) (c : Fin 8) : (d.request c).evaluate.grant ≠ 0 := by
  have some : ∀ (req : BitVec 8) (c : Fin 8),
      ((List.finRange 8).find? fun j => (req ||| channelLine c).getLsbD j.val).isSome = true := by decide
  have line : ∀ c : Fin 8, channelLine c ≠ 0 := by decide
  have h := some d.req c
  simp only [Drq.evaluate, Drq.request, ho, Drq.lowest, Bool.false_eq_true, if_false]
  cases e : (List.finRange 8).find? fun j => (d.req ||| channelLine c).getLsbD j.val with
  | none => rw [e] at h; simp at h
  | some c => exact line c

/-- A cycle that is not refused, with no grant outstanding, made no request (R244). -/
theorem State.cycle_no_request {s t : State} (ho : s.drq.outstanding = false) (h : s.cycle = .next t) :
    (s.rtc.expires s.params.rtcThreshold && s.rtc.enable) = false := by
  obtain ⟨rfl, hg⟩ := State.cycle_eq_next h
  by_contra hne
  have hne : (s.rtc.expires s.params.rtcThreshold && s.rtc.enable) = true := by
    cases hb : (s.rtc.expires s.params.rtcThreshold && s.rtc.enable) with
    | true => rfl
    | false => exact absurd hb hne
  refine Drq.evaluate_request (d := s.drq) ho s.params.rtcDrqChannel ?_
  simpa [State.tickDevices, hne] using hg

/-! Many ticks of one device -/

/-- An armed reader counts down (R222). -/
theorem Reader.ticks_wait (o : FrameOrder) (r : Reader) (hm : r.mode ≠ .null) {j : Nat} (h : j < r.delay) :
    (Reader.tick o)^[j] r = { r with delay := r.delay - j } := by
  induction j with
  | zero => rfl
  | succ j ih =>
    rw [Function.iterate_succ_apply', ih (by omega)]
    have : ¬ (r.delay - (j + 1) = 0) := by omega
    simp only [Reader.tick, hm, if_false, Nat.sub_sub, this]

/-- An armed reader with enough tape refills its buffer when its countdown ends (R222). -/
theorem Reader.ticks_refill (o : FrameOrder) (r : Reader) (hm : r.mode ≠ .null) (hd : 0 < r.delay)
    (hl : r.ptr + frameBytes r.mode ≤ r.tape.length) : (Reader.tick o)^[r.delay] r =
      { r with buf := r.frame o, ptr := r.ptr + frameBytes r.mode, flag := true, mode := .null, delay := 0 } := by
  obtain ⟨n, hn⟩ : ∃ n, r.delay = n + 1 := ⟨r.delay - 1, by omega⟩
  have : (Reader.tick o)^[r.delay] r = Reader.tick o ((Reader.tick o)^[n] r) := by rw [hn, Function.iterate_succ_apply']
  rw [this, Reader.ticks_wait o r hm (by omega)]
  have h1 : r.delay - n - 1 = 0 := by omega
  simp only [Reader.tick, hm, if_false, h1, if_true, Reader.refill, hl]
  simp [Reader.frame, Reader.byteAt]

/-- A teleprinter that is counting down keeps its flag until the last tick (R232). -/
theorem Teleprinter.ticks_wait (t : Teleprinter) {j : Nat} (h : j < t.delay) :
    Teleprinter.tick^[j] t = { t with delay := t.delay - j } := by
  induction j with
  | zero => rfl
  | succ j ih =>
    rw [Function.iterate_succ_apply', ih (by omega)]
    have h1 : ¬ (t.delay - j = 0) := by omega
    have h2 : ¬ (t.delay - j = 1) := by omega
    simp [Teleprinter.tick, h1, h2, Nat.sub_sub]

/-! The devices' own invariants -/

theorem Reader.tick_ok {o : FrameOrder} {r : Reader} (h : r.Ok) : (r.tick o).Ok := by
  obtain ⟨hp, hd⟩ := h
  unfold Reader.tick
  split
  · exact ⟨hp, hd⟩
  · simp only []
    split
    · rename_i h0
      unfold Reader.refill
      split
      · rename_i hle
        exact ⟨hle, by simpa [readDelay] using h0⟩
      · exact ⟨hp, (Nat.sub_le _ _).trans hd⟩
    · exact ⟨hp, (Nat.sub_le _ _).trans hd⟩

theorem Teleprinter.tick_ok {t : Teleprinter} (h : t.Ok) : t.tick.Ok := by
  obtain ⟨hd, hf⟩ := h
  unfold Teleprinter.tick
  split
  · exact ⟨hd, hf⟩
  · rename_i h0
    refine ⟨(Nat.sub_le _ _).trans hd, fun h1 => ?_⟩
    have : t.delay ≠ 1 := fun e => h1 (by simp [e])
    simp [hf h0, this]

theorem Clock.tick_count (c : Clock) (T : Nat) : (c.tick T).count ≤ T := by
  simp only [Clock.tick, nextCount]
  split <;> omega

theorem Reader.start_ok {r : Reader} (h : r.Ok) (binary : Bool) : (r.start binary).Ok := ⟨h.1, le_refl _⟩

theorem Teleprinter.print_ok (t : Teleprinter) (b : Byte) : (t.print b).Ok := ⟨le_refl _, fun _ => rfl⟩

end Sys2Proof.Machine
end

