-- ==== Sys2Proof/Laws/Encoding.lean ====
section
/-! SUPPORT. Small lemmas about the fields of a word and the tables of named words (spec 30_encoding.md R81 to R87). -/

namespace Sys2Proof

/-! The opcode field of each format -/

theorem opField_append (op : BitVec 4) (low : BitVec 14) : (op ++ low : Word).extractLsb' 14 4 = op :=
  BitVec.extractLsb'_append_eq_left

theorem opField_encodeMr (op : BitVec 4) (ind : Bool) (y : BitVec 13) : (encodeMr op ind y).extractLsb' 14 4 = op := by
  unfold encodeMr
  rw [BitVec.extractLsb'_append_eq_of_le (by omega)]
  exact BitVec.extractLsb'_append_eq_left

theorem opField_encodeIot (ign : BitVec 2) (b : IotBits) : (encodeIot ign b).extractLsb' 14 4 = 14 := by
  unfold encodeIot
  iterate 4 rw [BitVec.extractLsb'_append_eq_of_le (by omega)]
  exact BitVec.extractLsb'_append_eq_left

theorem opField_encodeIotName (ign : BitVec 2) (low : BitVec 12) :
    (encodeIotName ign low).extractLsb' 14 4 = 14 := by
  unfold encodeIotName
  rw [BitVec.extractLsb'_append_eq_of_le (by omega)]
  exact BitVec.extractLsb'_append_eq_left

theorem opField_encodeOpr (b : OprBits) : (encodeOpr b).extractLsb' 14 4 = 15 := by
  unfold encodeOpr
  iterate 13 rw [BitVec.extractLsb'_append_eq_of_le (by omega)]
  exact BitVec.extractLsb'_append_eq_left

/-! The fields of a memory-reference word -/

theorem ind_encodeMr (op : BitVec 4) (ind : Bool) (y : BitVec 13) : (encodeMr op ind y).getLsbD 13 = ind := by
  simp only [encodeMr, BitVec.getLsbD_append, BitVec.getLsbD_ofBool]
  simp

theorem y_encodeMr (op : BitVec 4) (ind : Bool) (y : BitVec 13) : (encodeMr op ind y).extractLsb' 0 13 = y :=
  BitVec.extractLsb'_append_eq_right

theorem encodeMr_fields (w : Word) : encodeMr (w.extractLsb' 14 4) (w.getLsbD 13) (w.extractLsb' 0 13) = w := by
  apply BitVec.eq_of_getLsbD_eq
  intro i hi
  simp only [encodeMr, BitVec.getLsbD_append, BitVec.getLsbD_extractLsb', BitVec.getLsbD_ofBool]
  interval_cases i <;> simp

theorem append_fields (w : Word) : ((w.extractLsb' 14 4 : BitVec 4) ++ w.extractLsb' 0 14 : Word) = w := by
  apply BitVec.eq_of_getLsbD_eq
  intro i hi
  simp only [BitVec.getLsbD_append, BitVec.getLsbD_extractLsb']
  interval_cases i <;> simp

/-! The bits of an operate word -/

theorem OprBits.ofWord_encodeOpr (b : OprBits) : OprBits.ofWord (encodeOpr b) = b := by
  cases b
  simp only [OprBits.ofWord, encodeOpr, BitVec.getLsbD_append, BitVec.getLsbD_ofBool]
  simp

theorem encodeOpr_ofWord (w : Word) (h : w.extractLsb' 14 4 = 15) : encodeOpr (OprBits.ofWord w) = w := by
  have hw := append_fields w
  rw [h] at hw
  rw [← hw]
  apply BitVec.eq_of_getLsbD_eq
  intro i hi
  simp only [encodeOpr, OprBits.ofWord, BitVec.getLsbD_append, BitVec.getLsbD_extractLsb', BitVec.getLsbD_ofBool]
  interval_cases i <;> simp

/-! The fields of an IOT word -/

theorem IotBits.ofWord_encodeIot (ign : BitVec 2) (b : IotBits) : IotBits.ofWord (encodeIot ign b) = b := by
  obtain ⟨dev, sub, cla, pulse⟩ := b
  simp only [IotBits.ofWord, encodeIot, IotBits.mk.injEq]
  refine ⟨?_, ?_, ?_, BitVec.extractLsb'_append_eq_right⟩
  · iterate 3 rw [BitVec.extractLsb'_append_eq_of_le (by omega)]
    exact BitVec.extractLsb'_append_eq_right
  · iterate 2 rw [BitVec.extractLsb'_append_eq_of_le (by omega)]
    exact BitVec.extractLsb'_append_eq_right
  · simp only [Option.any_some, BitVec.getLsbD_append, BitVec.getLsbD_ofBool]
    simp

theorem ign_encodeIot (ign : BitVec 2) (b : IotBits) : (encodeIot ign b).extractLsb' 12 2 = ign := by
  unfold encodeIot
  iterate 4 rw [BitVec.extractLsb'_append_eq_of_le (by omega)]
  exact BitVec.extractLsb'_append_eq_right

theorem ign_encodeIotName (ign : BitVec 2) (low : BitVec 12) : (encodeIotName ign low).extractLsb' 12 2 = ign := by
  unfold encodeIotName
  rw [BitVec.extractLsb'_append_eq_of_le (by omega)]
  exact BitVec.extractLsb'_append_eq_right

theorem encodeIot_ofWord (w : Word) (h : w.extractLsb' 14 4 = 14) :
    encodeIot (w.extractLsb' 12 2) (IotBits.ofWord w) = w := by
  have hw := append_fields w
  rw [h] at hw
  rw [← hw]
  apply BitVec.eq_of_getLsbD_eq
  intro i hi
  simp only [encodeIot, IotBits.ofWord, Option.any_some, BitVec.getLsbD_append, BitVec.getLsbD_extractLsb', BitVec.getLsbD_ofBool]
  interval_cases i <;> simp

/-! The tables of named words -/

theorem oprNames_keys : oprNames.map Prod.fst = namedOpr := rfl

theorem iotNames_keys (ign : BitVec 2) : (iotNames ign).map Prod.fst = namedIot := rfl

/-- The word R86 gives a name is the word with the bits of its row. -/
theorem oprNames_encode : ∀ p ∈ oprNames, encode p.2 = encodeOpr p.1 := by decide

/-- The word R87 gives a name is the word with the fields of its row, whatever bits 13:12 are. -/
theorem iotNames_encode (ign : BitVec 2) : ∀ p ∈ iotNames ign, encode p.2 = encodeIot ign p.1 := by
  revert ign; decide

theorem lookup_mem {α β : Type} [DecidableEq α] {l : List (α × β)} {a : α} {b : β} (h : l.lookup a = some b) :
    (a, b) ∈ l := by
  induction l with
  | nil => simp at h
  | cons p l ih =>
    obtain ⟨c, d⟩ := p
    by_cases hac : a = c
    · simp_all [List.lookup]
    · have : (a == c) = false := by simpa using hac
      simp only [List.lookup, this] at h
      simp [ih h]

theorem lookup_none_of_not_mem {α β : Type} [DecidableEq α] {l : List (α × β)} {a : α} (h : a ∉ l.map Prod.fst) :
    l.lookup a = none := by
  induction l with
  | nil => rfl
  | cons p l ih =>
    obtain ⟨c, d⟩ := p
    have hac : a ≠ c := fun e => h (by simp [e])
    have : (a == c) = false := by simpa using hac
    simp only [List.lookup, this]
    exact ih fun hm => h (by simp_all)

theorem not_mem_of_lookup_none {α β : Type} [DecidableEq α] {l : List (α × β)} {a : α} (h : l.lookup a = none) :
    a ∉ l.map Prod.fst := by
  induction l with
  | nil => simp
  | cons p l ih =>
    obtain ⟨c, d⟩ := p
    by_cases hac : a = c
    · simp_all [List.lookup]
    · have : (a == c) = false := by simpa using hac
      simp only [List.lookup, this] at h
      simpa [hac] using ih h

theorem decodeOpr_unnamed {b : OprBits} (h : Instr.wf (.opr b) = true) : decodeOpr b = .opr b := by
  simp only [Instr.wf, Bool.not_eq_true', List.contains_eq_mem, decide_eq_false_iff_not] at h
  simp [decodeOpr, lookup_none_of_not_mem (l := oprNames) (by rwa [oprNames_keys])]

theorem decodeIot_unnamed {ign : BitVec 2} {b : IotBits} (h : Instr.wf (.iot ign b) = true) :
    decodeIot ign b = .iot ign b := by
  simp only [Instr.wf, Bool.not_eq_true', List.contains_eq_mem, decide_eq_false_iff_not] at h
  simp [decodeIot, lookup_none_of_not_mem (l := iotNames ign) (by rwa [iotNames_keys])]

theorem encode_decodeOpr (b : OprBits) : encode (decodeOpr b) = encodeOpr b := by
  unfold decodeOpr
  cases h : oprNames.lookup b with
  | none => rfl
  | some i => exact oprNames_encode _ (lookup_mem h)

theorem encode_decodeIot (ign : BitVec 2) (b : IotBits) : encode (decodeIot ign b) = encodeIot ign b := by
  unfold decodeIot
  cases h : (iotNames ign).lookup b with
  | none => rfl
  | some i => exact iotNames_encode ign _ (lookup_mem h)

end Sys2Proof
end

