-- ==== Sys2Proof/Laws/Micro.lean ====
section
/-! SUPPORT. What the pieces of a Level M latch and cycle can do, and that the microcode input word loses nothing (spec
10_state.md R39; 40_engine_bus_alu.md R104, R119 to R123). -/

namespace Sys2Proof.Machine

/-- The core-write enable changes core only (R122). -/
theorem State.latchCore_eq (s : State) (a : Addr) (d : Word) : s.latchCore a d =
    { s with mem := if s.currentWord.latch.coreWrite then s.mem.write a d else s.mem } := by
  unfold State.latchCore
  split <;> rfl

/-- The OB latch changes OB, Zero, Sign and the Link, and only when it is set (R123). -/
theorem State.latchObLink_eq (s : State) (d : Word) (nextLink : Bool) : s.latchObLink d nextLink =
    { s with
      ob := if s.currentWord.alu.obLatch then d else s.ob
      zero := if s.currentWord.alu.obLatch then decide (d = 0) else s.zero
      sign := if s.currentWord.alu.obLatch then d.msb else s.sign
      link := if s.currentWord.alu.obLatch then nextLink else s.link } := by
  unfold State.latchObLink
  split <;> rfl

/-- Taking the write-back value changes AC and the coprocessor only (R201). -/
theorem State.takeWriteBack_eq (s : State) : s.takeWriteBack =
    { s with ac := s.takeWriteBack.ac, iocp := s.takeWriteBack.iocp } := rfl

/-- A cycle goes on exactly when the hardware's does and no violation of the bus discipline is logged (R104, U1). -/
theorem Micro.cycle_eq_next {m t : Micro} : m.cycle = .next t ↔ m.clock = .next t ∧ t.machine.protocolError = none := by
  unfold Micro.cycle
  cases m.clock with
  | next u =>
    show (match u.machine.protocolError with
      | some event => Host.Outcome.fault (Fault.busProtocol event)
      | none => Host.Outcome.next u) = .next t ↔ _
    split <;> simp only [Host.Outcome.next.injEq, reduceCtorEq, false_iff, not_and]
    · rintro rfl
      simp_all
    · constructor
      · rintro rfl
        exact ⟨rfl, ‹_›⟩
      · exact And.left
  | fault r => simp
  | refused r => simp

theorem append_inj {m n : Nat} {a b : BitVec m} {c d : BitVec n} (h : a ++ c = b ++ d) : a = b ∧ c = d :=
  ⟨by simpa [BitVec.extractLsb'_append_eq_left] using congrArg (·.extractLsb' n m) h,
    by simpa [BitVec.extractLsb'_append_eq_right] using congrArg (·.extractLsb' 0 n) h⟩

/-- The modes have different numbers, and so different codes (R38). -/
theorem modeNumber_injective {a b : DecodeMode} (h : modeNumber a = modeNumber b) : a = b := by
  cases a <;> cases b <;> first | rfl | exact absurd h (by decide)

/-- In one mode, the nine bits tell two inputs apart. -/
theorem MicroInput.fields_injective {i j : MicroInput} (hm : i.mode = j.mode) (hf : i.fields = j.fields) : i = j := by
  have bit : ∀ {a b : Bool}, BitVec.ofBool a = BitVec.ofBool b → a = b := by decide
  cases i <;> cases j <;> simp only [MicroInput.mode, reduceCtorEq] at hm <;> simp only [MicroInput.fields] at hf
  · obtain ⟨rfl, rfl⟩ := append_inj hf
    rfl
  · obtain ⟨h, h4⟩ := append_inj hf
    obtain ⟨h, h3⟩ := append_inj h
    obtain ⟨rfl, rfl⟩ := append_inj h
    rw [bit h3, bit h4]
  · obtain ⟨h, rfl⟩ := append_inj hf
    rw [bit (append_inj h).2]
  · rw [hf]

/-- The microcode input word carries the mode and all that R39 lists for it: two inputs with one word are one. -/
theorem MicroInput.word_injective {i j : MicroInput} (h : i.word = j.word) : i = j := by
  obtain ⟨hm, hf⟩ := append_inj h
  have hm := modeNumber_injective (Config.modeCode.injective hm)
  rw [hm] at hf
  exact MicroInput.fields_injective hm ((Config.fieldPacking j.mode).injective hf)

/-- JMPI_INTDET changes the clock's flag only, and never sets it (R236). -/
theorem Micro.signalClock_eq (m : Micro) : m.signalClock =
    { m with machine := { m.machine with
      rtc := { m.machine.rtc with flag := m.machine.rtc.flag && !m.machine.jmpiReported } } } := by
  unfold Micro.signalClock
  cases h : m.machine.jmpiReported <;> simp [State.jmpiIntdet]

end Sys2Proof.Machine
end

