-- ==== Sys2Proof/Laws/PerInstr.lean ====
section
/-! SUPPORT. The per-instruction family OpField: bits 17:14 of an instruction's word are its opcode (spec 30_encoding.md
R85). -/

namespace Sys2Proof.Laws.OpField

/-- Bits 17:14 of the word of an instruction are its opcode (R85). -/
def Statement (i : Instr) : Prop := (encode i).extractLsb' 14 4 = i.opcode

theorem cal (low : BitVec 14) : Statement (.cal low) := opField_append 0 low
theorem dac (ind : Bool) (y : BitVec 13) : Statement (.dac ind y) := opField_encodeMr _ ind y
theorem jms (ind : Bool) (y : BitVec 13) : Statement (.jms ind y) := opField_encodeMr _ ind y
theorem dzm (ind : Bool) (y : BitVec 13) : Statement (.dzm ind y) := opField_encodeMr _ ind y
theorem lac (ind : Bool) (y : BitVec 13) : Statement (.lac ind y) := opField_encodeMr _ ind y
theorem xor (ind : Bool) (y : BitVec 13) : Statement (.xor ind y) := opField_encodeMr _ ind y
theorem add (ind : Bool) (y : BitVec 13) : Statement (.add ind y) := opField_encodeMr _ ind y
theorem tad (ind : Bool) (y : BitVec 13) : Statement (.tad ind y) := opField_encodeMr _ ind y
theorem xct (ind : Bool) (y : BitVec 13) : Statement (.xct ind y) := opField_encodeMr _ ind y
theorem isz (ind : Bool) (y : BitVec 13) : Statement (.isz ind y) := opField_encodeMr _ ind y
theorem and (ind : Bool) (y : BitVec 13) : Statement (.and ind y) := opField_encodeMr _ ind y
theorem sad (ind : Bool) (y : BitVec 13) : Statement (.sad ind y) := opField_encodeMr _ ind y
theorem jmp (ind : Bool) (y : BitVec 13) : Statement (.jmp ind y) := opField_encodeMr _ ind y
theorem eae (low : BitVec 14) : Statement (.eae low) := opField_append 13 low
theorem iot (ign : BitVec 2) (b : IotBits) : Statement (.iot ign b) := opField_encodeIot ign b
theorem opr (b : OprBits) : Statement (.opr b) := opField_encodeOpr b
theorem nop : Statement .nop := rfl
theorem cma : Statement .cma := rfl
theorem cml : Statement .cml := rfl
theorem oas : Statement .oas := rfl
theorem ral : Statement .ral := rfl
theorem rar : Statement .rar := rfl
theorem hlt : Statement .hlt := rfl
theorem sma : Statement .sma := rfl
theorem sza : Statement .sza := rfl
theorem snl : Statement .snl := rfl
theorem skp : Statement .skp := rfl
theorem spa : Statement .spa := rfl
theorem sna : Statement .sna := rfl
theorem szl : Statement .szl := rfl
theorem rtl : Statement .rtl := rfl
theorem rtr : Statement .rtr := rfl
theorem cll : Statement .cll := rfl
theorem stl : Statement .stl := rfl
theorem cla : Statement .cla := rfl
theorem clc : Statement .clc := rfl
theorem las : Statement .las := rfl
theorem glk : Statement .glk := rfl
theorem claCll : Statement .claCll := rfl
theorem clsf (ign : BitVec 2) : Statement (.clsf ign) := opField_encodeIotName ign _
theorem clof (ign : BitVec 2) : Statement (.clof ign) := opField_encodeIotName ign _
theorem clon (ign : BitVec 2) : Statement (.clon ign) := opField_encodeIotName ign _
theorem rsf (ign : BitVec 2) : Statement (.rsf ign) := opField_encodeIotName ign _
theorem rcf (ign : BitVec 2) : Statement (.rcf ign) := opField_encodeIotName ign _
theorem rrb (ign : BitVec 2) : Statement (.rrb ign) := opField_encodeIotName ign _
theorem rsa (ign : BitVec 2) : Statement (.rsa ign) := opField_encodeIotName ign _
theorem rsb (ign : BitVec 2) : Statement (.rsb ign) := opField_encodeIotName ign _
theorem tsf (ign : BitVec 2) : Statement (.tsf ign) := opField_encodeIotName ign _
theorem tcf (ign : BitVec 2) : Statement (.tcf ign) := opField_encodeIotName ign _
theorem tls (ign : BitVec 2) : Statement (.tls ign) := opField_encodeIotName ign _

end Sys2Proof.Laws.OpField
end

