-- ==== Sys2Proof/Laws/Step.lean ====
section
/-! SUPPORT. What a step can be made of, said once (spec 40_engine_bus_alu.md R131; 60_exceptions.md R263). -/

namespace Sys2Proof.Machine

/-- A state with a recorded fault is no end of a run. -/
theorem State.ended_of_faulted {s : State} (h : s.faulted = true) : s.ended = false := by simp [State.ended, h]

/-- A recorded fault stays while no event is erased (R251). -/
theorem State.faulted_of_prefix {s t : State} (h : s.diags <+: t.diags) (hs : s.faulted = true) : t.faulted = true := by
  simp only [State.faulted, State.programFault, State.busFault, State.protocolError, Bool.or_eq_true, List.any_eq_true,
    List.find?_isSome] at hs ⊢
  exact hs.imp (fun ⟨d, hd, hp⟩ => ⟨d, h.subset hd, hp⟩) (fun ⟨d, hd, hp⟩ => ⟨d, h.subset hd, hp⟩)

theorem State.runLoaded_eq_next {s t : State} : s.runLoaded = .next t ↔
    ∃ a b c, s.advance s.actingCycle = .next a ∧ exec (decodeWith a.params.family.layout a.ir) a = .next b ∧
      b.advance (s.cyclesDrawn - s.actingCycle) = .next c ∧ t = c.settle := by
  constructor
  · intro h
    obtain ⟨a, ha, h⟩ := andThen_eq_next.1 h
    obtain ⟨b, hb, h⟩ := andThen_eq_next.1 h
    obtain ⟨c, hc, h⟩ := andThen_eq_next.1 h
    cases h
    exact ⟨a, b, c, ha, hb, hc, rfl⟩
  · rintro ⟨a, b, c, ha, hb, hc, rfl⟩
    exact andThen_eq_next.2 ⟨a, ha, andThen_eq_next.2 ⟨b, hb, andThen_eq_next.2 ⟨c, hc, rfl⟩⟩⟩

theorem State.idleCycle_eq_next {s t : State} :
    s.idleCycle = .next t ↔ ∃ a, s.advance 1 = .next a ∧ t = a.settlePanel := by
  unfold State.idleCycle
  rw [andThen_eq_next]
  simp [eq_comm]

/-- One cycle in the front-panel steps when no DRQ request is pending or arises. -/
theorem State.idleCycle_next {s : State} (hr : s.drq.req = 0) (hg : s.drq.grant = 0) (ho : s.drq.outstanding = false)
    (hc : (s.rtc.expires s.params.rtcThreshold && s.rtc.enable) = false) :
    s.idleCycle = .next (State.settlePanel { s with
      rdr := s.rdr.tick s.params.family.frameOrder
      tty := s.tty.tick
      rtc := s.rtc.tick s.params.rtcThreshold }) :=
  State.idleCycle_eq_next.2 ⟨_, by
    rw [State.advance_eq_cycles, State.cycles, State.cycle_next hr hg ho hc]; rfl, rfl⟩

theorem State.awaitCycle_eq_next {s t : State} : s.awaitCycle = .next t ↔
    ∃ a, s.idleCycle = .next a ∧ t = if s.neutralCode then { a with awaitNeutral := false } else a := by
  unfold State.awaitCycle
  rw [andThen_eq_next]
  constructor
  · rintro ⟨a, ha, h⟩
    cases h
    exact ⟨a, ha, rfl⟩
  · rintro ⟨a, ha, rfl⟩
    exact ⟨a, ha, rfl⟩

theorem State.panelEffect_eq_next {s t : State} {f : State → State} : s.panelEffect f = .next t ↔
    ∃ a, s.advance s.cyclesDrawn = .next a ∧ t = { (f a).settlePanel with awaitNeutral := true } := by
  unfold State.panelEffect
  rw [andThen_eq_next]
  simp [eq_comm]

theorem State.panelRun_eq_next {s t : State} {f : State → Result} : s.panelRun f = .next t ↔
    ∃ a, f s = .next a ∧ t = { a with awaitNeutral := true } := by
  unfold State.panelRun
  rw [andThen_eq_next]
  simp [eq_comm]

theorem State.singleStep_eq_next {s t : State} : s.singleStep = .next t ↔
    ∃ a, State.runInstruction { s with run := .running } = .next a ∧
      t = if a.run = .running then a.halt .haltStep else a := by
  unfold State.singleStep
  rw [andThen_eq_next]
  simp [eq_comm]

/-- A step that answers a next state is one of these. -/
theorem step_eq_next {s t : State} (h : step s = .next t) : s.irq = false ∧
    ((s.xctChain = true ∧ s.resumeChain = .next t) ∨
     (s.xctChain = false ∧ s.awaitNeutral = true ∧ s.awaitCycle = .next t) ∨
     (s.xctChain = false ∧ s.awaitNeutral = false ∧ s.run = .running ∧ s.runningStep = .next t) ∨
     (s.xctChain = false ∧ s.awaitNeutral = false ∧ s.run ≠ .running ∧ s.haltedStep = .next t)) := by
  unfold step at h
  split at h
  · cases h
  · rename_i hi
    refine ⟨by simpa using hi, ?_⟩
    split at h
    · exact .inl ⟨‹_›, h⟩
    · rename_i hx
      have hx : s.xctChain = false := by simpa using hx
      split at h
      · exact .inr (.inl ⟨hx, ‹_›, h⟩)
      · rename_i ha
        have ha : s.awaitNeutral = false := by simpa using ha
        split at h
        · exact .inr (.inr (.inl ⟨hx, ha, ‹_›, h⟩))
        · exact .inr (.inr (.inr ⟨hx, ha, ‹_›, h⟩))

/-- What every piece of a step keeps, every step keeps: cycles, executions, the loads of IR and fetch, what settles, and
the panel's own effects. -/
theorem step_induction (P : State → State → Prop) (refl : ∀ a, P a a) (trans : ∀ {a b c}, P a b → P b c → P a c)
    (advance : ∀ {n a b}, a.advance n = .next b → P a b) (exec : ∀ {i a b}, exec i a = .next b → P a b)
    (fetch : ∀ a : State, P a a.fetch) (loadIr : ∀ (a : State) w, P a (a.loadIr w)) (settle : ∀ a : State, P a a.settle)
    (settlePanel : ∀ a : State, P a a.settlePanel) (freeMb : ∀ a : State, P a a.freeMb)
    (chain : ∀ a : State, P a { a with xctChain := false }) (await : ∀ (a : State) b, P a { a with awaitNeutral := b })
    (run : ∀ (a : State) r, P a { a with run := r }) (goTo : ∀ a : State, P a { a with pc := a.addressSwitches })
    (examine : ∀ (a : State) x, P a (a.examine x))
    (deposit : ∀ (a : State) x, P a { a with ma := x, mem := a.mem.write x a.dataSwitches }) {s t : State}
    (h : step s = .next t) : P s t := by
  have loaded : ∀ {a b : State}, a.runLoaded = .next b → P a b := by
    intro a b hb
    obtain ⟨x, y, z, hx, hy, hz, rfl⟩ := State.runLoaded_eq_next.1 hb
    exact trans (advance hx) (trans (exec hy) (trans (advance hz) (settle z)))
  have instr : ∀ {a b : State}, a.runInstruction = .next b → P a b := fun hb => trans (fetch _) (loaded hb)
  have idle : ∀ {a b : State}, a.idleCycle = .next b → P a b := by
    intro a b hb
    obtain ⟨x, hx, rfl⟩ := State.idleCycle_eq_next.1 hb
    exact trans (advance hx) (settlePanel x)
  have effect : ∀ {a b : State} {f : State → State}, (∀ x, P x (f x)) → a.panelEffect f = .next b → P a b := by
    intro a b f hf hb
    obtain ⟨x, hx, rfl⟩ := State.panelEffect_eq_next.1 hb
    exact trans (advance hx) (trans (hf x) (trans (settlePanel _) (await _ true)))
  rcases (step_eq_next h).2 with ⟨-, h⟩ | ⟨-, -, h⟩ | ⟨-, -, -, h⟩ | ⟨-, -, -, h⟩
  · exact trans (chain s) (loaded h)
  · obtain ⟨a, ha, rfl⟩ := State.awaitCycle_eq_next.1 h
    split
    · exact trans (idle ha) (await a false)
    · exact idle ha
  · unfold State.runningStep at h
    split at h
    · exact effect (fun x => trans (freeMb x) (run _ _)) h
    · exact instr h
  · unfold State.haltedStep at h
    split at h
    · exact idle h
    · exact idle h
    · obtain ⟨a, ha, rfl⟩ := State.panelRun_eq_next.1 h
      obtain ⟨b, hb, rfl⟩ := State.singleStep_eq_next.1 ha
      refine trans (trans (run s .running) (instr hb)) (trans ?_ (await _ true))
      split
      · exact run b _
      · exact refl b
    · exact effect (fun x => trans (freeMb x) (run _ _)) h
    · exact effect (fun x => trans (freeMb x) (trans (goTo _) (run _ .running))) h
    · exact effect (fun x => examine x _) h
    · exact effect (fun x => examine x _) h
    · exact effect (fun x => trans (freeMb x) (deposit _ _)) h
    · exact effect (fun x => trans (freeMb x) (deposit _ _)) h
    · obtain ⟨a, ha, rfl⟩ := State.panelRun_eq_next.1 h
      exact trans (loadIr s _) (trans (loaded ha) (await a true))

end Sys2Proof.Machine
end

