-- ==== Sys2Proof/Tests/Slice0.lean ====
section
/-! SUPPORT. Small tests. Expected results are those of spec 95_test_vectors.md (named S1 to S11 and T1 to T117 there) and
of the tables of 30_encoding.md; each is one instruction or one step on a small state. -/

namespace Sys2Proof.Tests

open Sys2Proof.Machine

/-! Small states -/

/-- Reset with known parameters (EXT as given), all ready flags 0. -/
def base (ext : Bool) : State :=
  { State.reset with
    params := { Params.atReset with ext := ext, rtcThreshold := 100, rtcDrqChannel := 2 }
    rdr := { State.reset.rdr with flag := false }
    tty := { State.reset.tty with flag := false }
    rtc := { State.reset.rtc with flag := false } }

/-- A state at pc with these words in core, EXT = 0. -/
def start (pc : Addr) (core : List (Addr × Word)) : State := { base false with pc := pc, mem := Memory.load [] core }

/-- The word at PC, fetched and executed; no cycle passes. -/
def run1 (s : State) : Result := exec (decode s.fetch.ir) s.fetch

/-- Executes a word at 0100 with this AC and Link. -/
def word (w ac : Word) (link : Bool) : Result := run1 { start 0o100 [(0o100, w)] with ac := ac, link := link }

/-- Executes a word at 0100 with an operand at 0200, AC and Link. -/
def operand (w m ac : Word) (link : Bool) : Result :=
  run1 { start 0o100 [(0o100, w), (0o200, m)] with ac := ac, link := link }

/-- The answer is a next state of which p holds. -/
def gives (o : Result) (p : State → Bool) : Bool :=
  match o with
  | .next t => p t
  | _ => false

/-- The answer is this refusal. -/
def refuses (o : Result) (r : Refusal) : Bool :=
  match o with
  | .refused q => decide (q = r)
  | _ => false

/-! Well-formedness: each check refuses an ill-formed term -/

theorem test_wf_named_opr_word_is_no_opr : Instr.wf (.opr { ral := true }) = false := by decide
theorem test_wf_named_iot_word_is_no_iot : Instr.wf (.iot 0 { dev := 4, pulse := 6 }) = false := by decide
theorem test_wf_unnamed_words :
    Instr.wf (.opr { cla := true, sza := true }) = true ∧ Instr.wf (.iot 3 { dev := 4, pulse := 7 }) = true := by decide

/-! Decoding: words written out from R85 to R87, bits 17:14 the opcode, 13 the indirect bit -/

theorem test_decode_memory_reference :
    decode 0b000100000010000000 = .dac false 0o200 ∧ decode 0b001110000011000000 = .dzm true 0o300 ∧
    decode 0b010000000000100000 = .lac false 0o40 ∧ decode 0b010101111111111111 = .xor false 0o17777 ∧
    decode 0b011010000000001000 = .add true 0o10 ∧ decode 0b011100000010000000 = .tad false 0o200 ∧
    decode 0b100100000001000000 = .isz false 0o100 ∧ decode 0b101000000010000000 = .and false 0o200 ∧
    decode 0b101100000011000000 = .sad false 0o300 := by decide

theorem test_decode_control_transfer :
    decode 0b000000000000000000 = .cal 0 ∧ decode 0b000011111111111111 = .cal 0o37777 ∧
    decode 0b001000000010000000 = .jms false 0o200 ∧ decode 0b110010000010000000 = .jmp true 0o200 ∧
    decode 0b100000000011000000 = .xct false 0o300 ∧ decode 0b110100000000000000 = .eae 0 ∧
    decode 0b110111111111111111 = .eae 0o37777 := by decide

theorem test_decode_operate_one_bit :
    decode 0o740000 = .nop ∧ decode 0o740001 = .cma ∧ decode 0o740002 = .cml ∧ decode 0o740004 = .oas ∧
    decode 0o740010 = .ral ∧ decode 0o740020 = .rar ∧ decode 0o740040 = .hlt ∧ decode 0o740100 = .sma ∧
    decode 0o740200 = .sza ∧ decode 0o740400 = .snl ∧ decode 0o741000 = .skp ∧ decode 0o744000 = .cll ∧
    decode 0o750000 = .cla := by decide

theorem test_decode_operate_combined :
    decode 0o741100 = .spa ∧ decode 0o741200 = .sna ∧ decode 0o741400 = .szl ∧ decode 0o742010 = .rtl ∧
    decode 0o742020 = .rtr ∧ decode 0o744002 = .stl ∧ decode 0o750001 = .clc ∧ decode 0o750004 = .las ∧
    decode 0o750010 = .glk ∧ decode 0o754000 = .claCll ∧ decode 0o760000 = .opr { bit13 := true } ∧
    decode 0o742000 = .opr { arot := true } := by decide

theorem test_decode_iot :
    decode 0o700001 = .clsf 0 ∧ decode 0o700004 = .clof 0 ∧ decode 0o700044 = .clon 0 ∧ decode 0o700101 = .rsf 0 ∧
    decode 0o700102 = .rcf 0 ∧ decode 0o700112 = .rrb 0 ∧ decode 0o700104 = .rsa 0 ∧ decode 0o700144 = .rsb 0 ∧
    decode 0o700401 = .tsf 0 ∧ decode 0o700402 = .tcf 0 ∧ decode 0o700406 = .tls 0 ∧ decode 0o730101 = .rsf 3 ∧
    decode 0o717777 = .iot 1 { dev := 63, sub := 3, cla := true, pulse := 7 } := by decide

theorem test_decodeTableWord : decodeTableWord 24 0o200040 = some (.lac false 0o40) ∧ decodeTableWord 24 (2 ^ 18) = none := by
  decide

/-! Effective address -/

/-- T2: a direct address is in the bank the word was fetched from. -/
theorem test_direct_bank : gives (run1 (start 0o20100 [(0o20100, 0o200040), (0o20040, 0o555)]))
    (fun t => t.ac == 0o555 && t.pc == 0o20101 && t.ma == 0o20040) = true := by decide

/-- T4: EXT selects 15 or 13 bits of an indirection. -/
theorem test_indirect_ext :
    let core := [(0o100, 0o220200), (0o200, 0o40300), (0o40300, 0o111), (0o300, 0o222)]
    gives (run1 (start 0o100 core)) (fun t => t.ac == 0o222) = true ∧
    gives (run1 { base true with pc := 0o100, mem := Memory.load [] core }) (fun t => t.ac == 0o111) = true := by decide

/-- T9: the auto-index cell of another bank is the one of bank 0. -/
theorem test_auto_index_bank :
    gives (run1 (start 0o20100 [(0o20100, 0o220012), (0o12, 0o277), (0o20300, 0o666), (0o300, 0o777)]))
      (fun t => t.read 0o12 == 0o300 && t.read 0o20012 == 0 && t.ac == 0o666) = true := by decide

/-- T7 and T8: the last auto-index cell, and the cells just outside the range. -/
theorem test_auto_index_range :
    gives (run1 (start 0o100 [(0o100, 0o220017), (0o17, 0o777777), (0, 0o600100)]))
      (fun t => t.read 0o17 == 0 && t.ac == 0o600100) = true ∧
    gives (run1 (start 0o100 [(0o100, 0o220007), (7, 0o300), (0o300, 0o444)]))
      (fun t => t.read 7 == 0o300 && t.ac == 0o444) = true ∧
    gives (run1 (start 0o100 [(0o100, 0o220020), (0o20, 0o300), (0o300, 0o444)]))
      (fun t => t.read 0o20 == 0o300 && t.ac == 0o444) = true := by decide

/-- T11: with EXT = 1 the cell keeps 18 bits and the address 15. -/
theorem test_auto_index_ext :
    gives (run1 { base true with
        pc := 0o100, mem := Memory.load [] [(0o100, 0o220011), (0o11, 0o77777), (0, 0o600100)] })
      (fun t => t.read 0o11 == 0o100000 && t.ac == 0o600100) = true := by decide

/-! Memory-reference instructions -/

/-- T1, S6. -/
theorem test_lac : gives (run1 (start 0 [(0, 0o200040), (0o40, 0o123)])) (fun t => t.ac == 0o123 && t.pc == 1) = true := by
  decide
/-- T13. -/
theorem test_dac : gives (run1 { start 0o100 [(0o100, 0o60010), (0o10, 0o277)] with ac := 0o123456 })
    (fun t => t.read 0o300 == 0o123456 && t.read 0o10 == 0o300 && t.ac == 0o123456) = true := by decide
/-- T15. -/
theorem test_dzm : gives (run1 (start 0o100 [(0o100, 0o140300), (0o300, 0o777777)])) (fun t => t.read 0o300 == 0) = true := by
  decide
/-- T16. -/
theorem test_xor : gives (operand 0o240200 0o770000 0o707070 true) (fun t => t.ac == 0o077070 && t.link) = true := by decide
/-- T17. -/
theorem test_and : gives (operand 0o500200 0o770000 0o707070 true) (fun t => t.ac == 0o700000 && t.link) = true := by decide
/-- T20, T24, T25. -/
theorem test_add_carry_and_overflow :
    gives (operand 0o300200 1 0o777777 false) (fun t => t.ac == 1 && !t.link) = true ∧
    gives (operand 0o300200 0o400000 0o400000 false) (fun t => t.ac == 1 && t.link) = true ∧
    gives (operand 0o300200 1 0o377777 false) (fun t => t.ac == 0o400000 && t.link) = true := by decide
/-- T22, T23, T26. -/
theorem test_add_zeros_and_sticky_link :
    gives (operand 0o300200 0o777777 0o777777 false) (fun t => t.ac == 0o777777 && !t.link) = true ∧
    gives (operand 0o300200 0o777776 1 false) (fun t => t.ac == 0o777777) = true ∧
    gives (operand 0o300200 1 1 true) (fun t => t.ac == 2 && t.link) = true := by decide
/-- T28, T29, T31. -/
theorem test_tad :
    gives (operand 0o340200 1 0o777777 false) (fun t => t.ac == 0 && t.link) = true ∧
    gives (operand 0o340200 1 0o777777 true) (fun t => t.ac == 0 && !t.link) = true ∧
    gives (operand 0o340200 1 0o377777 false) (fun t => t.ac == 0o400000 && !t.link) = true := by decide
/-- T33, T34. -/
theorem test_isz :
    gives (operand 0o440200 0o777776 5 true) (fun t => t.read 0o200 == 0o777777 && t.pc == 0o101) = true ∧
    gives (operand 0o440200 0o777777 5 true) (fun t => t.read 0o200 == 0 && t.pc == 0o102 && t.ac == 5 && t.link) = true := by
  decide
/-- T39: a skip at the end of the bank. -/
theorem test_isz_skip_wraps_in_bank :
    gives (run1 (start 0o17776 [(0o17776, 0o440100), (0o100, 0o777777)])) (fun t => t.pc == 0) = true := by decide
/-- T36, T37, T38. -/
theorem test_sad :
    gives (operand 0o540200 0o123 0o123 false) (fun t => t.pc == 0o101 && t.ac == 0o123) = true ∧
    gives (operand 0o540200 0o124 0o123 false) (fun t => t.pc == 0o102 && t.ac == 0o123) = true ∧
    gives (operand 0o540200 0 0o777777 false) (fun t => t.pc == 0o102) = true := by decide

/-! Control transfer -/

/-- T40. -/
theorem test_jms : gives (word 0o100200 0 true) (fun t => t.read 0o200 == 0o101 && t.pc == 0o201 && t.link) = true := by
  decide
/-- T42: EA + 1 wraps over all 15 bits. -/
theorem test_jms_wraps :
    gives (run1 (start 0o60100 [(0o60100, 0o117777)])) (fun t => t.read 0o77777 == 0o60101 && t.pc == 0) = true := by decide
/-- T47. -/
theorem test_jmp_stays_in_bank : gives (run1 (start 0o20100 [(0o20100, 0o600005)])) (fun t => t.pc == 0o20005) = true := by
  decide
/-- T45: the indirect form clears the clock's flag. -/
theorem test_jmp_indirect_clears_clock_flag :
    gives (run1 { start 0o203 [(0o203, 0o620200), (0o200, 0o102)] with rtc := { State.reset.rtc with flag := true } })
      (fun t => t.pc == 0o102 && !t.rtc.flag) = true := by decide
/-- T49, T50. -/
theorem test_xct :
    gives (run1 (start 0o100 [(0o100, 0o400300), (0o300, 0o200040), (0o40, 0o123)]))
      (fun t => t.ac == 0o123 && t.pc == 0o101 && t.ir == 0o200040) = true ∧
    gives (run1 (start 0o100 [(0o100, 0o400300), (0o300, 0o741000)])) (fun t => t.pc == 0o102) = true := by decide
/-- T51, T52: an executed JMS, and a chain of two. -/
theorem test_xct_jms_and_chain :
    gives (run1 (start 0o100 [(0o100, 0o400300), (0o300, 0o100200)]))
      (fun t => t.read 0o200 == 0o101 && t.pc == 0o201) = true ∧
    gives (run1 { start 0o100 [(0o100, 0o400300), (0o300, 0o400301), (0o301, 0o750000)] with ac := 5 })
      (fun t => t.ac == 0 && t.pc == 0o101 && !t.xctChain) = true := by decide
/-- T53: an XCT of itself is still in progress. -/
theorem test_xct_self : gives (word 0o400100 5 false) (fun t => t.xctChain && t.ir == 0o400100 && t.pc == 0o101) = true := by
  decide +kernel
/-- T54. -/
theorem test_cal : refuses (word 0 0 false) .callHasNoTransfer = true := by decide
/-- T55: the address field takes no part. -/
theorem test_eae : gives (word 0o677777 5 true)
    (fun t => t.pc == 0o101 && t.run == .halted .notImplemented && t.diags == [.notImplemented 0o677777] && t.ac == 5) = true := by
  decide

/-! The operate group, words at 0100 -/

/-- T56, T57, T58. -/
theorem test_nop_cla_cma :
    gives (word 0o740000 0o123 true) (fun t => t.ac == 0o123 && t.link && t.pc == 0o101) = true ∧
    gives (word 0o750000 0o123 true) (fun t => t.ac == 0 && t.link) = true ∧
    gives (word 0o740001 1 false) (fun t => t.ac == 0o777776) = true := by decide
/-- T59, T85, R198. -/
theorem test_link_words :
    gives (word 0o744000 7 true) (fun t => !t.link) = true ∧ gives (word 0o740002 7 false) (fun t => t.link) = true ∧
    gives (word 0o744002 7 false) (fun t => t.link) = true ∧
    gives (word 0o754000 7 true) (fun t => !t.link && t.ac == 0) = true := by decide
/-- T60 to T63. -/
theorem test_sma_sza :
    gives (word 0o740100 0o400000 false) (fun t => t.pc == 0o102) = true ∧
    gives (word 0o740100 0o377777 false) (fun t => t.pc == 0o101) = true ∧
    gives (word 0o740200 0 false) (fun t => t.pc == 0o102) = true ∧
    gives (word 0o740200 0o777777 false) (fun t => t.pc == 0o101) = true := by decide
/-- T64 to T66. -/
theorem test_snl_skp :
    gives (word 0o740400 0 true) (fun t => t.pc == 0o102) = true ∧
    gives (word 0o740400 0 false) (fun t => t.pc == 0o101) = true ∧
    gives (word 0o741000 0 false) (fun t => t.pc == 0o102) = true := by decide
/-- T67 to T69. -/
theorem test_spa_sna_szl :
    gives (word 0o741100 0o377777 false) (fun t => t.pc == 0o102) = true ∧
    gives (word 0o741100 0o400000 false) (fun t => t.pc == 0o101) = true ∧
    gives (word 0o741200 5 false) (fun t => t.pc == 0o102) = true ∧
    gives (word 0o741200 0 false) (fun t => t.pc == 0o101) = true ∧
    gives (word 0o741400 0 false) (fun t => t.pc == 0o102) = true ∧
    gives (word 0o741400 0 true) (fun t => t.pc == 0o101) = true := by decide
/-- T70 to T73. -/
theorem test_opr_several_selects :
    gives (word 0o740300 0o400000 false) (fun t => t.pc == 0o102) = true ∧
    gives (word 0o740300 5 false) (fun t => t.pc == 0o101) = true ∧
    gives (word 0o741300 5 false) (fun t => t.pc == 0o102) = true ∧
    gives (word 0o741300 0 false) (fun t => t.pc == 0o101) = true ∧
    gives (word 0o741700 5 false) (fun t => t.pc == 0o102) = true := by decide
/-- T74, T75: the three sample points. -/
theorem test_opr_skip_sample :
    let at' (p : SkipSample) (w ac : Word) : Result := run1 { start 0o100 [(0o100, w)] with
      ac := ac, params := { (base false).params with oprSkipSample := p } }
    gives (at' .afterStage1 0o750200 5) (fun t => t.ac == 0 && t.pc == 0o102) = true ∧
    gives (at' .beforeStage1 0o750200 5) (fun t => t.ac == 0 && t.pc == 0o101) = true ∧
    gives (at' .afterStage1 0o740410 0o400000) (fun t => t.pc == 0o101) = true ∧
    gives (at' .afterStage2 0o740410 0o400000) (fun t => t.link && t.pc == 0o102) = true := by decide
/-- T76 to T79. -/
theorem test_rotates :
    gives (word 0o740010 0o400001 false) (fun t => t.ac == 2 && t.link) = true ∧
    gives (word 0o740020 3 false) (fun t => t.ac == 1 && t.link) = true ∧
    gives (word 0o742010 0o600000 false) (fun t => t.ac == 1 && t.link) = true ∧
    gives (word 0o742020 3 false) (fun t => t.ac == 0o400000 && t.link) = true := by decide
/-- T81, T82. -/
theorem test_oas_las :
    gives (run1 { start 0o100 [(0o100, 0o740004)] with ac := 0o700000, dataSwitches := 7 }) (fun t => t.ac == 0o700007)
      = true ∧
    gives (run1 { start 0o100 [(0o100, 0o750004)] with ac := 0o123, dataSwitches := 0o654321 })
      (fun t => t.ac == 0o654321) = true := by decide
/-- T83, T84. -/
theorem test_glk_clc :
    gives (word 0o750010 0o123 true) (fun t => t.ac == 1 && !t.link) = true ∧
    gives (word 0o750001 0o123 true) (fun t => t.ac == 0o777777) = true := by decide
/-- T86, T87. -/
theorem test_hlt :
    gives (word 0o740040 5 true) (fun t => t.run == .halted .hlt && t.pc == 0o101 && t.ac == 5 && t.link) = true ∧
    gives (word 0o741040 5 true) (fun t => t.run == .halted .hlt && t.pc == 0o102) = true := by decide
/-- T88. -/
theorem test_opr_refused :
    refuses (word 0o740030 0 false) .oprRalWithRar = true ∧ refuses (word 0o740014 0 false) .oprOasWithRotate = true ∧
    refuses (word 0o740024 0 false) .oprOasWithRotate = true ∧ refuses (word 0o760000 0 false) .oprBit13 = true ∧
    refuses (word 0o777777 0 false) .oprBit13 = true := by decide

/-! IOT and the devices -/

/-- An IOT word at 0100 with the reader's flag set and its buffer as given. -/
def readerWord (w ac buf : Word) : Result :=
  run1 { start 0o100 [(0o100, w)] with ac := ac, rdr := { (base false).rdr with flag := true, buf := buf } }

/-- T89, T90. -/
theorem test_rrb_rcf :
    gives (readerWord 0o700112 0o777777 0o101) (fun t => t.ac == 0o101 && !t.rdr.flag && t.pc == 0o101) = true ∧
    gives (readerWord 0o700102 0o700000 0o101) (fun t => t.ac == 0o700101 && !t.rdr.flag) = true := by decide
/-- T91, T92. -/
theorem test_rsf_and_test_before_clear :
    gives (readerWord 0o730101 5 7) (fun t => t.pc == 0o102 && t.rdr.flag && t.ac == 5) = true ∧
    gives (word 0o700101 5 false) (fun t => t.pc == 0o101 && !t.rdr.flag) = true ∧
    gives (readerWord 0o700103 0 7) (fun t => t.pc == 0o102 && !t.rdr.flag && t.ac == 7) = true := by decide
/-- R216, R217: the two starts. -/
theorem test_rsa_rsb :
    gives (word 0o700104 0 false) (fun t => t.rdr.mode == .alpha && t.rdr.delay == 10) = true ∧
    gives (word 0o700144 0 false) (fun t => t.rdr.mode == .binary && t.rdr.delay == 30) = true := by decide
/-- T93, T95: an alpha frame, at the 10th tick and not at the 9th, not masked to 6 bits. -/
theorem test_alpha_frame :
    let r := (({ State.reset.rdr with tape := [0o301, 0o151], flag := false } : Reader)).start false
    let after (n : Nat) : Reader := (Reader.tick .firstHigh)^[n] r
    (after 9).flag = false ∧ (after 10).buf = 0o301 ∧ (after 10).flag = true ∧ (after 10).ptr = 1 ∧
    (after 10).mode = .null := by decide
/-- T94: a binary frame, and the other order of its bytes (R14, G7). -/
theorem test_binary_frame :
    let r := (({ State.reset.rdr with tape := [0o301, 0o202, 0o103], flag := false } : Reader)).start true
    let after (o : FrameOrder) (n : Nat) : Reader := (Reader.tick o)^[n] r
    (after .firstHigh 29).flag = false ∧ (after .firstHigh 30).buf = 0o010203 ∧ (after .firstHigh 30).ptr = 3 ∧
    (after .firstLow 30).buf = 0o030201 := by
  decide +kernel
/-- T96: a reader with too few bytes stalls. -/
theorem test_reader_stalls :
    let r := (({ State.reset.rdr with tape := [1, 2], flag := false } : Reader)).start true
    (Reader.tick .firstHigh)^[40] r = { r with delay := 0 } := by decide +kernel
/-- T97. -/
theorem test_tls : gives (word 0o700406 0o123501 false)
    (fun t => t.sink == [0x41] && !t.tty.flag && t.tty.delay == 300 && t.tty.buf == 0x41) = true := by decide
/-- T98. -/
theorem test_tcf_tsf :
    gives (run1 { start 0o100 [(0o100, 0o700402)] with tty := { flag := true, delay := 0, buf := 0 } }) (fun t => !t.tty.flag)
      = true ∧
    gives (run1 { start 0o100 [(0o100, 0o700401)] with tty := { flag := true, delay := 0, buf := 0 } })
      (fun t => t.pc == 0o102 && t.tty.flag) = true ∧
    gives (word 0o700401 0 false) (fun t => t.pc == 0o101) = true := by decide
/-- T100. -/
theorem test_clsf :
    gives (run1 { start 0o100 [(0o100, 0o700001)] with rtc := { State.reset.rtc with flag := true } })
      (fun t => t.pc == 0o102 && t.rtc.flag) = true ∧
    gives (word 0o700001 0 false) (fun t => t.pc == 0o101) = true := by decide
/-- T101. -/
theorem test_clon_clof :
    gives (run1 { start 0o100 [(0o100, 0o700044)] with rtc := { State.reset.rtc with count := 5 } })
      (fun t => t.rtc.enable && t.rtc.count == 0) = true ∧
    gives (run1 { start 0o100 [(0o100, 0o700004)] with rtc := { State.reset.rtc with count := 5, enable := true } })
      (fun t => !t.rtc.enable && t.rtc.count == 0) = true := by decide
/-- T102, T103: the clock's period, and the request of an enabled clock. -/
theorem test_clock_period :
    let c : Clock := { count := 0, enable := false, flag := false, drq := false }
    ((fun c : Clock => c.tick 6)^[6] c).count = 6 ∧ ((fun c : Clock => c.tick 6)^[7] c) = c ∧
    ((fun c : Clock => c.tick 6)^[7] { c with enable := true }).drq = true := by decide
/-- T103: the cycle in which the enabled clock expires is refused. -/
theorem test_drq_grant_refused :
    refuses (State.cycle { base false with rtc := { (base false).rtc with enable := true, count := 100 } }) .drqGrant = true ∧
    gives (State.cycle { base false with rtc := { (base false).rtc with enable := true, count := 99 } })
      (fun t => t.rtc.count == 100) = true := by decide
/-- T104, T105, T106, T107. -/
theorem test_iot_unknown_device_and_pulses :
    gives (word 0o700201 0o123 false) (fun t => t.diags == [.unknownDevice 2] && t.pc == 0o101 && t.ac == 0o123) = true ∧
    gives (word 0o700210 0o123 false) (fun t => t.diags == [.unknownDevice 2] && t.ac == 0) = true ∧
    gives (word 0o700000 0o123 false) (fun t => t.diags == [] && t.pc == 0o101 && t.ac == 0o123) = true ∧
    gives (run1 { start 0o100 [(0o100, 0o700002)] with rtc := { State.reset.rtc with flag := true } })
      (fun t => !t.rtc.flag && t.pc == 0o101) = true := by decide

/-! The parameters: what another value of each does (R8, R14) -/

/-- The word at 0100 with other general-knowledge points. -/
def inFamily (f : Family) (w ac : Word) : Result :=
  run1 { start 0o100 [(0o100, w)] with
    ac := ac, params := { (base false).params with family := f }, rdr := { (base false).rdr with flag := true, buf := 7 } }

/-- G1 to G3: CLA and CMA change places; an opcode in bits 16:13; Y in bits 13:1; an IOT with no clear-AC bit. -/
theorem test_layouts :
    decodeWith { opr := { cla := 0, cma := 12 } } 0o740001 = .cla ∧ decodeWith { op := 13, ind := 17 } 0o520040
      = .xor true 0o40 ∧ decodeWith { ind := 0, y := 1 } 0o200101 = .lac true 0o40 ∧ decodeWith { iot := { cla := none } } 0o700112 = .rcf 0 := by decide
/-- G5, G6, G10: the mode bit, the order of the pulses, a loaded write-back, the order of stage one. -/
theorem test_family :
    gives (inFamily { modeBit := 0 } 0o700124 0) (fun t => t.rdr.mode == .binary) = true ∧
    gives (inFamily { pulseOrder := .clearTestStart } 0o700103 0) (fun t => t.pc == 0o101 && t.ac == 7) = true ∧
    gives (inFamily { writeBack := .load } 0o700102 0o70) (fun t => t.ac == 7) = true ∧
    gives (inFamily { stageOrder := .complementsFirst } 0o750001 5) (fun t => t.ac == 0) = true := by decide
/-- G4: another value of each transfer (the word at 0102 is 7). -/
theorem test_transfers :
    let t (f : Transfers) (w ac m : Word) (p : State → Bool) : Bool :=
      gives (run1 { start 0o100 [(0o100, w), (0o102, m)] with
        ac := ac, mq := 0o55, params := { (base false).params with family := { transfers := f } } }) p
    t { dac := .mq } 0o040102 5 7 (fun s => s.read 0o102 == 0o55) = true ∧
    t { dzm := .ac } 0o140102 5 7 (fun s => s.read 0o102 == 5) = true ∧
    t { lac := .combined .or } 0o200102 8 7 (fun s => s.ac == 15) = true ∧
    t { iszAdds := 2, iszSkip := .obNonzero } 0o440102 5 7 (fun s => s.read 0o102 == 0o11 && s.pc == 0o102) = true ∧
    t { sadSkip := .obZero } 0o540102 7 7 (fun s => s.pc == 0o102) = true ∧
    t { sadOp := .and } 0o540102 8 7 (fun s => s.pc == 0o101) = true ∧
    t { jmp := .afterEa } 0o600102 5 7 (fun s => s.pc == 0o103) = true ∧
    targetBank .ofEa 0o20101 0o40300 = 2 ∧ targetBank .ofPc 0o20101 0o40300 = 1 := by decide
/-- FP_CODE: other numbers for two actions (R8, R264). -/
theorem test_fpCode : let k : PanelCodes := { haltStep := 12, cont := 1 }
    panelAction k 12 = .haltStep ∧ panelAction k 1 = .continue ∧ panelAction k 2 = .neutral ∧ panelAction k 0 = .neutral ∧
    ∀ c : BitVec 4, 10 ≤ c → panelAction {} c = .neutral := by decide

/-! Level M: the bus, the latch, the ALU, the skip flag -/

/-- R120: STEP takes its low STEP_WIDTH bits of the data bus. -/
theorem test_step_width : 0o777777 &&& stepMask 6 = 0o77 ∧ 0o777777 &&& stepMask 12 = 0o7777 ∧ stepMask 18 = 0o777777 := by
  decide
/-- R201: at Level M the reader's word comes into AC in the first latch after the acknowledge, and once. -/
theorem test_write_back_reaches_ac :
    let s : State := { start 0o100 [] with
      ac := 0o700000, ir := 0o700102, rdr := { (base false).rdr with flag := true, buf := 0o101 }, currentWord := {} }
    let seen := s.iocpClock true
    let acked := seen.iocpClock true
    let t := ({ machine := acked, data := none, address := none, nextLink := false } : Micro).latch.machine
    seen.iocp.busy = true ∧ acked.iocp.ack = true ∧ acked.ac = 0o700000 ∧ t.ac = 0o700101 ∧ t.iocp.ack = true ∧
    t.iocp.wbValid = false ∧ t.rdr.flag = false ∧ (t.iocpClock false).iocp = {} := by decide

/-- S4, R121: a latch takes Skip from the IR it latches and the flags of before it, here Sign, though it clears them. -/
theorem test_latch_skip :
    let s : State := { base false with
      sign := true, ir := 0o740200, currentWord := { latch := { ir := true }, alu := { obLatch := true } } }
    let skip (d : Word) : Bool := ({ machine := s, data := some d, address := none, nextLink := false } : Micro).latch.machine.skip
    skip 0o740100 = true ∧ skip 0o740200 = false ∧ skip 0o741100 = false := by decide
/-- R46, R236: nothing but an indirect JMP reports JMPI_INTDET at Level M. -/
theorem test_jmpi_only : ({ base false with ir := 0o600100 } : State).jmpiReported = false ∧
    ({ base false with ir := 0o220100 } : State).jmpiReported = false := by decide

/-- R39: the nine bits of the three modes, before they are packed. -/
theorem test_microcode_input :
    let v : EngineView := { (base false).engineView with ir := 0o422000, step := 2, maai := true }
    let w : EngineView := { v with ir := 0o752010, mode := .operate }
    ({ v with mode := .instruction } : EngineView).input {} = .instruction 8 2 true true ∧
    (MicroInput.instruction 8 2 true true).fields = 0b100001011 ∧
    w.input {} = .operate false 0b10000 ∧ ({ w with step := 1 } : EngineView).input {} = .operate true 0b00110 ∧
    (MicroInput.operate true 0b00110).fields = 0b000100110 ∧ (MicroInput.service 3 9).fields = 0b000111001 := by decide
/-- R104, U1: a cycle that latches AC from a floating data bus is a fault; one that latches nothing goes on. -/
theorem test_bus_fault :
    let m (c : ControlWord) : Micro :=
      { machine := { base false with currentWord := c, nextWord := {} }, data := none, address := none, nextLink := false }
    (match (m { latch := { ac := true } }).cycle with
      | .fault (.busProtocol d) => decide (d = .floatingBus .data)
      | _ => false) = true ∧
    (match (m {}).cycle with
      | .next t => decide (t.machine.ac = 0)
      | _ => false) = true := by decide
/-- U1: a state with a recorded violation is never final. -/
theorem test_bus_fault_not_final : let s : State := { base false with run := .halted .hlt }
    s.ended = true ∧ ({ s with diags := [.floatingBus .data] } : State).ended = false ∧
    ({ s with diags := [.multipleAssert .address] } : State).busFault = true ∧
    ({ s with diags := [.unknownDevice 2] } : State).ended = true := by decide
/-- R284, U2, and StepKeepsParametersAndOutput's fault: after opcode 13, the panel's continue and a HLT, the machine is halted by HLT and the run has not ended. -/
theorem test_program_fault_stays :
    let s := start 0o100 [(0o100, 0o640000), (0o101, 0o740040)]
    let next (o : Result) (f : State → Result) : Result := match o with
      | .next t => f t
      | .fault r => .fault r
      | .refused r => .refused r
    let continued := next (next (step s) fun t => step { t with panelCode := 2 }) fun t => step { t with panelCode := 0 }
    gives (step s) (fun t => t.programFault && !t.ended) = true ∧
    gives (next continued step) (fun t => t.run == .halted .hlt && t.programFault && !t.ended) = true ∧
    gives (step (start 0o100 [(0o100, 0o740040)])) State.ended = true := by decide

/-- S1. -/
theorem test_bus :
    busAssert .data (some (0o123 : Word)) 0o456 = (some 0o123, [.multipleAssert .data]) ∧
    busRead .data (none : Option Word) = (0, [.floatingBus .data]) := by decide
/-- S3. -/
theorem test_address_latch : latchAddr false 0o40123 0o770456 = 0o50456 ∧ latchAddr true 0o40123 0o770456 = 0o70456 := by
  decide
/-- T108, T113, S2. -/
theorem test_alu_bitwise_and_shifts :
    (arith .or false 0o707070 0o770000 false).1 = 0o777070 ∧ (arith .clear false 0o707070 0o770000 false).1 = 0 ∧
    shift .rar 3 false = (1, true) ∧ shift .rtr 3 false = (0o400000, true) ∧
    shift .rtl 0o600000 false = (1, true) ∧ shift .rar 2 true = (0o400001, false) := by decide
/-- T109 to T112. -/
theorem test_alu_add :
    arith .add false 0o777777 1 false = (0, true) ∧ arith .add false 0o777777 1 true = (0, false) ∧
    arith .add true 0o400000 0o400000 false = (1, true) ∧ arith .add true 0o777776 2 true = (1, true) := by decide
/-- R109: a subtraction is one less in two's complement, exact in one's complement. -/
theorem test_alu_subtract : subtract false 5 3 = 1 ∧ subtract true 5 3 = 2 ∧ subtract true 3 5 = 0o777775 := by decide
/-- S4, S11: the Skip formula with its polarity, and Zero of the two zeros. -/
theorem test_skip_and_zero :
    skipOfWord 0o740200 true false false = true ∧ skipOfWord 0o741200 true false false = false ∧
    skipOfWord 0o740500 false false true = true ∧ zeroOf 0 = true ∧ zeroOf 0o777777 = false ∧ signOf 0o777777 = true := by
  decide

/-! The machine: the halted state, the front panel, the host -/

/-- A halted machine with these switches and this front-panel code. -/
def halted (code : BitVec 4) : State :=
  { start 0o300 [(0o200, 0o555), (0o300, 0o740001), (0o301, 0o666)] with
    run := .halted .hlt, panelCode := code, addressSwitches := 0o200, dataSwitches := 0o740040, ma := 0o300 }

/-- T114, T115. -/
theorem test_examine_deposit :
    gives (step (halted 4)) (fun t => t.ma == 0o200 && t.mb == 0o555 && t.awaitNeutral) = true ∧
    gives (step (halted 6)) (fun t => t.ma == 0o200 && t.read 0o200 == 0o740040 && t.run == .halted .hlt) = true := by decide
/-- R267, R268: the next forms work at MA + 1. -/
theorem test_examine_next_deposit_next :
    gives (step (halted 5)) (fun t => t.ma == 0o301 && t.mb == 0o666) = true ∧
    gives (step (halted 7)) (fun t => t.ma == 0o301 && t.read 0o301 == 0o740040) = true := by decide
/-- T116, and continue (R269). -/
theorem test_goTo_continue :
    gives (step (halted 3)) (fun t => t.pc == 0o200 && t.run == .running && t.awaitNeutral) = true ∧
    gives (step (halted 2)) (fun t => t.pc == 0o300 && t.run == .running) = true := by decide
/-- R269, R270: a single step runs the word at PC; execute runs the data switches, here HLT, and leaves PC. -/
theorem test_singleStep_execute :
    gives (step (halted 1)) (fun t => t.ac == 0o777777 && t.pc == 0o301 && t.run == .halted .haltStep) = true ∧
    gives (step (halted 9)) (fun t => t.pc == 0o300 && t.run == .halted .hlt) = true := by decide
/-- T117: a halted machine with code 0, and with read-in (R271), executes nothing. -/
theorem test_halted_idles :
    gives (step (halted 0)) (fun t => t.pc == 0o300 && t.ac == 0 && t.run == .halted .hlt && !t.awaitNeutral) = true ∧
    gives (step (halted 8)) (fun t => t.pc == 0o300 && t.ac == 0 && t.run == .halted .hlt) = true := by decide
/-- R263: halt-step halts a running machine before its next fetch. -/
theorem test_haltStep : gives (step { halted 1 with run := .running })
    (fun t => t.pc == 0o300 && t.ac == 0 && t.run == .halted .haltStep) = true := by decide
/-- R265, R271: the wait ends with code 0, and not with an action's code or read-in. -/
theorem test_awaitNeutral : ∀ c ∈ [(1 : BitVec 4), 2, 8, 9],
    gives (step { halted 0 with awaitNeutral := true }) (fun t => !t.awaitNeutral) = true ∧
    gives (step { halted c with awaitNeutral := true }) (fun t => t.awaitNeutral && t.pc == 0o300) = true := by decide
/-- R264: several buttons, the lowest-numbered action is the code. -/
theorem test_panelCodeOf : panelCodeOf {} [.deposit, .goTo, .execute] = 3 ∧ panelCodeOf {} [] = 0 := by decide
/-- R255: an interrupt request is refused. -/
theorem test_interrupt_refused :
    refuses (step { halted 0 with ion := true, rtc := { State.reset.rtc with flag := true } }) .interruptEntry = true := by
  decide
/-- R72, R229: the host's writes. -/
theorem test_host_writes :
    ((base false).host (.loadCore [(0o200, 5), (0o100, 7), (0o200, 0)])).mem = [(0o100, 7)] ∧
    ((base false).host (.loadTape [1, 2])).rdr.tape = [1, 2] := by decide

/-- The machine runs a word placed where it fetches, from reset. -/
theorem test_first_instruction_from_reset :
    gives (step (State.reset.withFetchWord 24 0o750001)) (fun t => t.ac == 0o777777 && t.pc == 1) = true := by decide

/-! Witnesses: for each statement with hypotheses, states and operands that meet them all, at the ends of their ranges -/

/-- DecodeOfEncodeIsIdentity. -/
theorem test_hyps_wf : Instr.wf (.opr { bit13 := true }) = true ∧ Instr.wf (.iot 3 { dev := 63 }) = true ∧
    Instr.wf (.lac true 0o17777) = true ∧ Instr.wf .glk = true ∧ Instr.wf (.tls 3) = true := by decide

/-- StepRunsFetchedInstruction. -/
theorem test_hyps_running_step : let s := start 0o100 [(0o100, 0o750000)]
    s.irq = false ∧ s.xctChain = false ∧ s.awaitNeutral = false ∧ s.run = .running ∧
    s.panelAction ≠ .haltStep := by decide

/-- StepResumesXctChain and InterruptRequestIsRefused. -/
theorem test_hyps_chain_and_interrupt :
    let s : State := { base false with xctChain := true }
    let u : State := { base false with ion := true, rtc := { (base false).rtc with flag := true } }
    (s.irq = false ∧ s.xctChain = true) ∧ u.ion = true ∧ u.rtc.flag = true := by decide

/-- AutoIndexIncrementsItsCell at both ends of the range, and PlainIndirectionReadsPointer just outside it. -/
theorem test_hyps_auto_index : let p := (base false).params
    (p.autoIndexLo ≤ 0o10 ∧ 0o10 ≤ p.autoIndexHi) ∧ (p.autoIndexLo ≤ 0o17 ∧ 0o17 ≤ p.autoIndexHi) ∧
    ¬ (p.autoIndexLo ≤ 0o7 ∧ 0o7 ≤ p.autoIndexHi) ∧ ¬ (p.autoIndexLo ≤ 0o20 ∧ 0o20 ≤ p.autoIndexHi) := by decide

/-- LacLoadsAc, scenario A. -/
theorem test_hyps_scenario_a : let s := start 0 [(0, 0o200040), (0o40, 0o123)]
    s.params.family.transfers = {} ∧ s.pc = 0 ∧ s.read 0 = 0o200040 ∧ s.read 0o40 = 0o123 := by decide

/-- LoadingInstructionsFrame and StoringInstructionsFrame: each instruction answers a next state, here through the
auto-index cell 010. -/
theorem test_hyps_frames : let s := start 0o100 [(0o10, 0o277)]
    ∀ i ∈ [Instr.lac true 0o10, .xor true 0o10, .and true 0o10, .add true 0o10, .tad true 0o10, .sad true 0o10,
      .dac true 0o10, .dzm true 0o10, .isz true 0o10, .jms true 0o10],
    gives (exec i s) (fun _ => true) = true := by decide

/-- XctExecutesItsTarget: a target that is no XCT, no CAL and no refused operate word. -/
theorem test_hyps_xct_target : let s := start 0o101 [(0o300, 0o750000)]
    let w := (s.resolve false 0o300).read (s.resolve false 0o300).ma
    s.params.family.transfers = {} ∧ decode w = .cla ∧ (decode w).opcode ≠ 8 ∧ (decode w).opcode ≠ 0 ∧ ∀ b, decode w = .opr b → b.bit13 = false ∧
      ¬ (b.ral = true ∧ b.rar = true) ∧ ¬ (b.oas = true ∧ (b.ral = true ∨ b.rar = true)) := by
  refine ⟨by decide, by decide, by decide, by decide, fun b h => ?_⟩
  exact absurd (((by decide : decode _ = Instr.cla).symm.trans h)) (by simp)

/-- The state of a machine in the middle of the XCT at 0100 that names itself: a link leaves it as it is. -/
def selfXct : State := { start 0o101 [(0o100, 0o400100)] with ir := 0o400100, ma := 0o100 }

theorem test_selfXct_link : selfXct.xctLink false 0o100 = selfXct := by
  have hi : (selfXct.xctLink false 0o100).ir = selfXct.ir := by decide
  have hm : (selfXct.xctLink false 0o100).ma = selfXct.ma := by decide
  rw [State.xctLink_eq, hi, hm]
  rfl

theorem test_selfXct_decode : Instr.xct false 0o100 = decodeWith selfXct.params.family.layout selfXct.ir := by decide

/-- XctExecutesItsTarget, chains: T52's, of two links and then CLA, and one that never ends. -/
theorem test_hyps_xct_links :
    let i (k : Nat) : Instr := if k = 0 then .xct false 0o300 else if k = 1 then .xct false 0o301 else .cla
    let s := start 0o101 [(0o300, 0o400301), (0o301, 0o750000)]
    let u (k : Nat) : State :=
      if k = 0 then s else if k = 1 then s.xctLink false 0o300 else (s.xctLink false 0o300).xctLink false 0o301
    let links (i : Nat → Instr) (u : Nat → State) (n : Nat) : Prop := ∀ k < n, ∃ ind y, i k = .xct ind y ∧
      u (k + 1) = (u k).xctLink ind y ∧ i (k + 1) = decodeWith (u (k + 1)).params.family.layout (u (k + 1)).ir
    (2 ≤ chainLinks ∧ links i u 2 ∧ (i 2).opcode ≠ 8) ∧
      links (fun _ => .xct false 0o100) (fun _ => selfXct) (chainLinks + 1) := by
  refine ⟨⟨by decide, fun k hk => ?_, by decide⟩, fun k _ => ⟨false, 0o100, rfl, test_selfXct_link.symm, test_selfXct_decode⟩⟩
  interval_cases k
  · exact ⟨false, 0o300, rfl, rfl, by decide⟩
  · exact ⟨false, 0o301, rfl, rfl, by decide⟩

/-- SelfXctNeverEnds. -/
theorem test_hyps_self_xct : let s : State := { start 0o101 [(0o100, 0o400100)] with
      xctChain := true, ir := 0o400100, ma := 0o100 }
    s.irq = false ∧ s.drqQuiet = true ∧ s.xctChain = true ∧
    decodeWith s.params.family.layout s.ir = .xct false 0o100 ∧ bank s.ma = bank s.pc ∧
    s.read (mkAddr (bank s.pc) 0o100) = s.ir := by decide

/-- OperateGroupRule, OperateWordsRefused (a case each) and SkipSampleIsUnobservableAlone. -/
theorem test_hyps_operate :
    let good (b : OprBits) : Bool := !b.bit13 && !(b.ral && b.rar) && !(b.oas && (b.ral || b.rar))
    good { oas := true, arot := true, cla := true } = true ∧ good { ral := true, arot := true } = true ∧
    good { ral := true, rar := true } = false ∧ good { oas := true, rar := true } = false ∧
    good { bit13 := true } = false ∧ good { sza := true, pol := true, hlt := true, arot := true } = true := by decide

/-- IotPulsesTestClearDeliver, and UnknownDeviceIsAcknowledged at the ids around the populated ones. -/
theorem test_hyps_devices :
    deviceOf 0 = some .clock ∧ deviceOf 1 = some .reader ∧ deviceOf 4 = some .teleprinter ∧
    ∀ d ∈ [(2 : BitVec 6), 3, 5, 63], d ≠ 0 ∧ d ≠ 1 ∧ d ≠ 4 ∧ deviceOf d = none := by decide

/-- IotFrame, NoInstructionWritesThese and OnlyTheseInstructionsWrite: an instruction of each kind, not XCT, that answers
a next state. -/
theorem test_hyps_exec_next : ∀ i ∈ [Instr.iot 0 { dev := 4, pulse := 7 }, .iot 0 { dev := 2 }, .hlt, .jmp true 0o10,
      .jmp false 0o10, .eae 0, .cla],
    i.opcode ≠ 8 ∧ gives (exec i (base false)) (fun _ => true) = true := by decide

/-- TapeReaderRoundTrip: the first and the last byte; BinaryFrameAfterThirtyTicks: a tape with exactly one frame left. -/
theorem test_hyps_tape : let bytes : List Byte := [0o110, 0o151]
    0 < bytes.length ∧ 1 < bytes.length ∧
    let r : Reader := { State.reset.rdr with tape := [9, 1, 2, 3], ptr := 1 }
    r.ptr + 3 ≤ r.tape.length := by decide

/-- ClockPeriodAndRequest and DrqGrantIsRefused: the last count before the threshold is passed. -/
theorem test_hyps_clock :
    let s : State := { base false with rtc := { (base false).rtc with enable := true, count := 100 } }
    (base false).rtc.count = 0 ∧ s.rtc.enable = true ∧ s.params.rtcThreshold < s.rtc.count + 1 ∧ s.drq.grant = 0 ∧
    s.drq.outstanding = false := by decide

/-- ArbiterGrantsLowestChannel: a case each, with the lowest and the highest channel granted. -/
theorem test_hyps_arbiter :
    let low (req : BitVec 8) (c : Fin 8) : Prop := req.getLsbD c = true ∧ ∀ j < c, req.getLsbD j = false
    low 0b11111111 0 ∧ low 0b10000000 7 ∧ (Drq.mk 0 0 false).req = 0 ∧ (Drq.mk 4 4 true).outstanding = true := by decide

/-- HaltedMachineOnlyTicksDevices: halted with codes 0, read-in and 15, and waiting for neutral while RUNNING with go-to
still pressed, and with the code neutral again; the clock enabled, at its last count before the threshold. -/
theorem test_hyps_idle : let clock (s : State) : State := { s with rtc := { s.rtc with enable := true, count := 99 } }
    ∀ s ∈ [clock (halted 0), clock (halted 8), clock (halted 15),
      clock { halted 3 with run := .running, awaitNeutral := true }, clock { halted 0 with awaitNeutral := true }],
    s.irq = false ∧ s.xctChain = false ∧ s.drq.req = 0 ∧ s.drq.grant = 0 ∧ s.drq.outstanding = false ∧
    s.rtc.count + 1 ≤ s.params.rtcThreshold ∧
    (s.awaitNeutral = true ∨ (s.run ≠ .running ∧ (s.panelAction = .neutral ∨ s.panelAction = .readIn))) := by decide

/-- PanelActionsOnHaltedMachine and HaltStepHaltsBeforeFetch: the codes of R264 give their actions. -/
theorem test_hyps_panel : ∀ c ∈ [((1 : BitVec 4), PanelAction.haltStep), (2, .continue), (3, .goTo), (4, .examine),
      (5, .examineNext), (6, .deposit), (7, .depositNext)], let s := halted c.1
    s.irq = false ∧ s.xctChain = false ∧ s.awaitNeutral = false ∧ s.run ≠ .running ∧ s.drqQuiet = true ∧
    ({ s with run := .running } : State).drqQuiet = true ∧ s.panelAction = c.2 := by decide

/-- SingleStepReturnsToHalted: both codes answer a next state. -/
theorem test_hyps_singleStep : ∀ c ∈ [((1 : BitVec 4), PanelAction.haltStep), (9, .execute)],
    (halted c.1).panelAction = c.2 ∧ (halted c.1).xctChain = false ∧ (halted c.1).awaitNeutral = false ∧
    (halted c.1).run ≠ .running ∧ gives (step (halted c.1)) (fun _ => true) = true := by decide

/-- The premises on the general-knowledge points hold at the spec's values (LacLoadsAc,
XorAndCombineAc, AddIsOnesComplementWithStickyLink, TadIsNineteenBitSum, DacAndDzmStore, IszIncrementsAndSkipsOnZero, SadSkipsWhenDifferent,
JmpGoesToEa, XctExecutesItsTarget, IotPulsesTestClearDeliver, NamedIotWords). -/
theorem test_hyps_family : let f := State.reset.params.family
    f.transfers = {} ∧ f.modeBit = 1 ∧ f.pulseOrder = .testClearStart ∧ f.writeBack = .or := by decide

/-- A Level M state with this control word and a value on the data bus. -/
def micro (c : ControlWord) : Micro :=
  { machine := { base false with currentWord := c }, data := some 0o770456, address := none, nextLink := true }

/-- AddressLatchKeepsOrTakesBank (four clauses) and ObLatchUpdatesZeroSignLink (two). -/
theorem test_hyps_latch :
    let c (ma pc extended ob : Bool) : ControlWord :=
      { latch := { ma := ma, pc := pc }, bus := { extended := extended }, alu := { obLatch := ob } }
    (∀ e b : Bool, let m := micro (c true true e b)
      m.data = some 0o770456 ∧ m.machine.currentWord.latch.ma = true ∧ m.machine.currentWord.latch.pc = true ∧
      m.machine.currentWord.bus.extended = e ∧ m.machine.currentWord.alu.obLatch = b) := by decide

/-- InstructionsComplete. -/
theorem test_hyps_complete : ∀ i ∈ [Instr.dac false 0, .jmp true 0o17777, .eae 0, .iot 0 { dev := 63 }, .tls 3, .nop],
    i.opcode ≠ 0 ∧ i.opcode ≠ 8 := by decide

/-- StepKeepsInvariant, ClockFlagNeverRises and StepKeepsParametersAndOutput: a state that meets the invariant, with core
listed and the clock's flag 0, and steps to a next state. -/
theorem test_hyps_invariant : (start 0o100 [(0o100, 0o700406)]).Inv ∧ (start 0o100 [(0o100, 0o700406)]).rtc.flag = false ∧
    gives (step (start 0o100 [(0o100, 0o700406)])) (fun _ => true) = true :=
  ⟨⟨by decide, rfl, rfl, rfl, rfl, ⟨by decide, by decide⟩, ⟨by decide, by decide⟩, by decide, ⟨rfl, rfl, rfl, rfl⟩⟩,
    by decide, by decide⟩

end Sys2Proof.Tests
end

section
/-! Where MA and PC come from in a Level M latch (spec 10_state.md R28; 40_engine_bus_alu.md R103, R119, R120). -/

namespace Sys2Proof.Machine

/-- An extended latch stores the whole incoming address (R28). -/
theorem latchAddr_extended (old : Addr) (v : Word) : latchAddr true old v = v.extractLsb' 0 15 := rfl

/-- A non-extended latch takes the offset of the incoming word (R28). -/
theorem latchAddr_offset (old : Addr) (v : Word) : offset (latchAddr false old v) = v.extractLsb' 0 13 :=
  offset_mkAddr _ _

/-- Of the pieces of a Level M latch, only the register latches reach MA (R119, R120). -/
theorem Micro.latch_ma (m : Micro) : m.latch.machine.ma =
    if m.machine.currentWord.latch.ma then
      latchAddr m.machine.currentWord.bus.extended m.machine.ma (busRead .data m.data).1
    else m.machine.ma := by
  simp [Micro.latch, State.latchObLink_eq, State.latchSkip, State.latchCore_eq, State.latchRegisters]

/-- Of the pieces of a Level M latch, only the register latches reach PC (R119, R120). -/
theorem Micro.latch_pc (m : Micro) : m.latch.machine.pc =
    if m.machine.currentWord.latch.pc then
      latchAddr m.machine.currentWord.bus.extended m.machine.pc (busRead .data m.data).1
    else m.machine.pc := by
  simp [Micro.latch, State.latchObLink_eq, State.latchSkip, State.latchCore_eq, State.latchRegisters]

/-- A read of a driven bus gives the value it carries (R103). -/
theorem busRead_some {n : Nat} (name : BusName) (u : BitVec n) : busRead name (some u) = (u, []) := rfl

/-- Settles O48: MA and PC are `latchAddr` of the data bus, which keeps the bank or takes all 15 bits. -/
theorem addressLatchKeepsOrTakesBank : Obligations.AddressLatchKeepsOrTakesBank := by
  intro m v hdata
  have hread : (busRead .data m.data).1 = v := by rw [hdata, busRead_some]
  refine ⟨fun hma hext => ?_, fun hma hext => ?_, fun hpc hext => ?_, fun hpc hext => ?_⟩
  · rw [Micro.latch_ma, if_pos hma, hext, hread]
    exact ⟨latchAddr_bank _ _, latchAddr_offset _ _⟩
  · rw [Micro.latch_ma, if_pos hma, hext, hread, latchAddr_extended]
  · rw [Micro.latch_pc, if_pos hpc, hext, hread]
    exact ⟨latchAddr_bank _ _, latchAddr_offset _ _⟩
  · rw [Micro.latch_pc, if_pos hpc, hext, hread, latchAddr_extended]

end Sys2Proof.Machine
end

section
/-! The bus, the shifter, and the OB latch with Skip (spec 10_state.md R30, R31; 40_engine_bus_alu.md R102, R103, R110, R119,
R121, R123). -/

namespace Sys2Proof.Machine

/-! The shifter turns the ring `link : v`, whose bits are told one by one (R9, R110) -/

/-- Bit 18 of the ring is the Link, and the bits below it are the word's (R9). -/
theorem getElem_withLink (link : Bool) (v : Word) (i : Nat) (hi : i < 19) :
    (withLink link v)[i] = if h : i < 18 then v[i] else link :=
  (BitVec.getElem_append hi).trans (by simp only [BitVec.getElem_ofBool])

/-- The two outputs of the shifter, taken from a ring that is known (R110). -/
theorem ringParts_of_eq {x : BitVec 19} {k : Bool} {v : Word} (h : x = withLink k v) : (lowWord x, x.msb) = (v, k) := by
  have hlow : lowWord (withLink k v) = v := BitVec.extractLsb'_append_eq_right
  have htop : (withLink k v).msb = k := by
    rw [BitVec.msb_eq_getLsbD_last, BitVec.getLsbD_eq_getElem (by decide), getElem_withLink, dif_neg (by decide)]
  rw [h, hlow, htop]

/-- One place to the left: the Link comes in at bit 0, and bit 17 goes out to the Link. -/
theorem withLink_rotateLeft_one (ob : Word) (link : Bool) : (withLink link ob).rotateLeft 1 =
    withLink (ob.getLsbD 17) ((ob <<< 1) ||| (BitVec.ofBool link).zeroExtend 18) := by
  ext i hi
  obtain rfl | hmid | rfl : i = 0 ∨ (1 ≤ i ∧ i < 18) ∨ i = 18 := by omega
  · simp [getElem_withLink, BitVec.getElem_rotateLeft]
  · simp [getElem_withLink, BitVec.getElem_rotateLeft, hmid, show i ≠ 0 by omega, show i - 1 < 18 by omega]
  · simp [getElem_withLink, BitVec.getElem_rotateLeft]

/-- One place to the right: the Link comes in at bit 17, and bit 0 goes out to the Link. -/
theorem withLink_rotateRight_one (ob : Word) (link : Bool) : (withLink link ob).rotateRight 1 =
    withLink (ob.getLsbD 0) (((BitVec.ofBool link).zeroExtend 18 <<< 17) ||| (ob >>> 1)) := by
  ext i hi
  obtain hmid | rfl | rfl : i < 17 ∨ i = 17 ∨ i = 18 := by omega
  · simp [getElem_withLink, BitVec.getElem_rotateRight, hmid, show i < 18 by omega, show 1 + i < 18 by omega]
  · simp [getElem_withLink, BitVec.getElem_rotateRight]
  · simp [getElem_withLink, BitVec.getElem_rotateRight]

/-- Two places to the left: bit 17 and the Link come in at bits 0 and 1, and bit 16 goes out to the Link. -/
theorem withLink_rotateLeft_two (ob : Word) (link : Bool) : (withLink link ob).rotateLeft 2 =
    withLink (ob.getLsbD 16) ((ob <<< 2) ||| ((BitVec.ofBool link).zeroExtend 18 <<< 1) |||
      (BitVec.ofBool (ob.getLsbD 17)).zeroExtend 18) := by
  ext i hi
  obtain rfl | rfl | hmid | rfl : i = 0 ∨ i = 1 ∨ (2 ≤ i ∧ i < 18) ∨ i = 18 := by omega
  · simp [getElem_withLink, BitVec.getElem_rotateLeft]
  · simp [getElem_withLink, BitVec.getElem_rotateLeft]
  · simp [getElem_withLink, BitVec.getElem_rotateLeft, hmid, show i ≠ 0 by omega,
      show ¬i < 2 by omega, show i - 2 < 18 by omega, show i - 1 ≠ 0 by omega]
  · simp [getElem_withLink, BitVec.getElem_rotateLeft]

/-- Two places to the right: the Link and bit 0 come in at bits 16 and 17, and bit 1 goes out to the Link. -/
theorem withLink_rotateRight_two (ob : Word) (link : Bool) : (withLink link ob).rotateRight 2 =
    withLink (ob.getLsbD 1) (((BitVec.ofBool (ob.getLsbD 0)).zeroExtend 18 <<< 17) |||
      ((BitVec.ofBool link).zeroExtend 18 <<< 16) ||| (ob >>> 2)) := by
  ext i hi
  obtain hmid | rfl | rfl | rfl : i < 16 ∨ i = 16 ∨ i = 17 ∨ i = 18 := by omega
  · simp [getElem_withLink, BitVec.getElem_rotateRight, hmid, show i < 17 by omega, show i < 18 by omega,
      show 2 + i < 18 by omega]
  · simp [getElem_withLink, BitVec.getElem_rotateRight]
  · simp [getElem_withLink, BitVec.getElem_rotateRight]
  · simp [getElem_withLink, BitVec.getElem_rotateRight]

/-- Settles O50: each operation gives the two parts of the ring, turned by one or two places. -/
theorem shifterTable : Obligations.ShifterTable := fun ob link =>
  ⟨ringParts_of_eq (withLink_rotateLeft_one ob link), ringParts_of_eq (withLink_rotateRight_one ob link),
    ringParts_of_eq (withLink_rotateLeft_two ob link), ringParts_of_eq (withLink_rotateRight_two ob link)⟩

/-! The OB latch and Skip -/

/-- Of the pieces of a Level M latch, only the OB latch reaches OB, Zero, Sign and the Link (R119, R123). -/
theorem Micro.latch_flags (m : Micro) :
    let set := m.machine.currentWord.alu.obLatch
    let v := (busRead .data m.data).1
    m.latch.machine.ob = (if set then v else m.machine.ob) ∧
    m.latch.machine.zero = (if set then decide (v = 0) else m.machine.zero) ∧
    m.latch.machine.sign = (if set then v.msb else m.machine.sign) ∧
    m.latch.machine.link = (if set then m.nextLink else m.machine.link) := by
  simp [Micro.latch, State.latchObLink_eq, State.latchSkip, State.latchCore_eq, State.latchRegisters]

/-- A Level M latch computes Skip from the IR it latches and the flags of before it: the register latches and the core write
come before Skip and keep the flags, and the OB latch comes after it and keeps Skip and IR (R119, R121). -/
theorem Micro.latch_skip (m : Micro) : m.latch.machine.skip =
    skipOfWord m.latch.machine.ir m.machine.zero m.machine.sign m.machine.link := by
  simp [Micro.latch, State.latchObLink_eq, State.latchSkip, State.latchCore_eq, State.latchRegisters]

/-- Settles O49: `latch_flags` with the enable set and clear, and `latch_skip`. -/
theorem obLatchUpdatesZeroSignLink : Obligations.ObLatchUpdatesZeroSignLink := by
  intro m
  obtain ⟨hob, hzero, hsign, hlink⟩ := m.latch_flags
  refine ⟨fun hset => ?_, fun hclear => ?_, rfl, m.latch_skip⟩
  · simp only [hset, if_true] at hob hzero hsign hlink
    exact ⟨hob, hzero, hsign.trans (BitVec.msb_eq_getLsbD_last _), hlink⟩
  · simp only [hclear, Bool.false_eq_true, if_false] at hob hzero hsign hlink
    exact ⟨hob, hzero, hsign, hlink⟩

/-! The bus -/

/-- The first assert of a bus holds (R102). -/
theorem busAssert_none {α : Type} (name : BusName) (v : α) : busAssert name none v = (some v, []) := rfl

/-- A second assert is a diagnostic and is discarded (R102). -/
theorem busAssert_some {α : Type} (name : BusName) (u v : α) :
    busAssert name (some u) v = (some u, [.multipleAssert name]) := rfl

/-- A read of a floating bus is a diagnostic and gives 0 (R103). -/
theorem busRead_none {n : Nat} (name : BusName) :
    busRead name (none : Option (BitVec n)) = (0, [.floatingBus name]) := rfl

/-- Settles O47, by the four cases of an assert and a read. -/
theorem busDiscipline : Obligations.BusDiscipline :=
  ⟨fun _ name u v => ⟨busAssert_none name u, busAssert_some name u v⟩,
    fun _ name u => ⟨busRead_some name u, busRead_none name⟩⟩

end Sys2Proof.Machine
end

section
/-! LAC: its word, what it loads, and scenario A (spec 41_memory_reference.md R140, R145; 95_test_vectors.md S6). -/

namespace Sys2Proof.Machine

/-- The number of a memory-reference word: opcode, I and Y side by side (R81). -/
theorem toNat_encodeMr (op : BitVec 4) (ind : Bool) (y : BitVec 13) :
    (encodeMr op ind y).toNat = op.toNat * 2 ^ 14 + ind.toNat * 2 ^ 13 + y.toNat := by
  have hInd : (op ++ BitVec.ofBool ind).toNat = op.toNat * 2 + ind.toNat := by
    rw [BitVec.toNat_append, BitVec.toNat_ofBool, ← Nat.shiftLeft_add_eq_or_of_lt ind.toNat_lt, Nat.shiftLeft_eq]
  rw [encodeMr, BitVec.toNat_append, ← Nat.shiftLeft_add_eq_or_of_lt y.isLt, Nat.shiftLeft_eq, hInd]
  omega

/-- LAC answers the resolved state with AC loaded, in every state (R145). -/
theorem exec_lac (ind : Bool) (y : BitVec 13) (s : State) :
    let e := s.resolve ind y
    exec (.lac ind y) s = .next { e with ac := e.loadValue s.params.family.transfers.lac (e.read e.ma) } := by
  simp only [← State.resolve_params s ind y]
  rfl

/-- In the spec's transfers, LAC loads the word itself (R145, G4). -/
theorem State.loadValue_lac (s : State) {f : Transfers} (h : f = {}) (m : Word) : s.loadValue f.lac m = m := by
  subst h
  rfl

/-- LAC completes, loads the word at EA in the spec's transfers, and keeps the Link, PC and the resolved core (R145). -/
theorem exec_lac_effect (s : State) (ind : Bool) (y : BitVec 13) :
    let e := s.resolve ind y
    ∃ t, exec (.lac ind y) s = .next t ∧ (s.params.family.transfers = {} → t.ac = e.read e.ma) ∧
      t.link = s.link ∧ t.pc = s.pc ∧ t.mem = e.mem :=
  ⟨_, exec_lac ind y s, fun h => State.loadValue_lac _ h _, State.resolve_link s ind y, State.resolve_pc s ind y, rfl⟩

/-- The increment of address 0 is 1, with and without PC_INC_EXTENDED (R27). -/
theorem inc_zero (p : Params) : inc p 0 = 1 := by
  have hbank : mkAddr (bank 0) (offset 0 + 1) = 0 + 1 := by decide
  rw [inc, hbank, ite_self, zero_add]

/-- The direct address of a fetched instruction lies in the bank it was fetched from (R126, R140). -/
theorem State.fetch_directAddr (s : State) (y : BitVec 13) : s.fetch.directAddr y = mkAddr (bank s.pc) y := by
  rw [State.directAddr, State.fetch_ma, bank_mkAddr]

/-- Settles O11: the word and the effect of any LAC, and scenario A as a direct LAC after a fetch at 0. -/
theorem lacLoadsAc : Obligations.LacLoadsAc := by
  refine ⟨fun s ind y => ⟨toNat_encodeMr 4 ind y, exec_lac_effect s ind y⟩, fun s hfamily hpc hinstr hdata => ?_⟩
  obtain ⟨t, hexec, hac, -, htpc, -⟩ := exec_lac_effect s.fetch false 0o40
  have hdecode : decode s.fetch.ir = .lac false 0o40 := by
    rw [State.fetch_ir, hpc, hinstr]
    decide
  refine ⟨t, hdecode ▸ hexec, ?_, ?_⟩
  · rw [hac hfamily, State.resolve_direct, State.fetch_directAddr, hpc]
    exact hdata
  · rw [htpc, State.fetch_pc, hpc, inc_zero]

end Sys2Proof.Machine
end

section
/-! CAL: opcode 0 has no meaning, and no state or low bits give it one (spec 42_control_transfer.md R167). -/

namespace Sys2Proof.Machine

/-- Settles O24: the dispatch sends CAL to `execCal`, which is the refusal whatever its operand and the state (R167, D10). -/
theorem calIsRefused : Obligations.CalIsRefused := by
  intro s low
  show execCal low s = .refused .callHasNoTransfer
  rfl

end Sys2Proof.Machine
end

section
/-! The DRQ arbiter: one evaluation grants or withdraws, and channels 2 and 5 are served in that order (spec
44_iot_coprocessor_devices.md R240 to R243). -/

namespace Sys2Proof.Machine

/-- An outstanding grant is withdrawn, whatever is requested (R241). -/
theorem Drq.evaluate_outstanding {d : Drq} (ho : d.outstanding = true) :
    d.evaluate = { d with grant := 0, outstanding := false } := by
  rw [Drq.evaluate, if_pos ho]

/-- With no grant outstanding, the lowest requesting channel is granted alone, and the requests are kept (R240, R241). -/
theorem Drq.evaluate_lowest {d : Drq} {c : Fin 8} (ho : d.outstanding = false) (hc : d.lowest = some c) :
    d.evaluate = { d with grant := channelLine c, outstanding := true } := by
  simp [Drq.evaluate, ho, hc]

/-- Settles O40: 2 is the lowest of the two channels and is granted; it drops its request and the grant is withdrawn; 5 is
then the lowest and is granted. -/
theorem arbiterGrantsTwoThenFive : Obligations.ArbiterGrantsTwoThenFive := by
  unfold Obligations.ArbiterGrantsTwoThenFive
  intro t0 t1 t2 t3
  have hgrant : t1 = { t0 with grant := channelLine 2, outstanding := true } :=
    Drq.evaluate_lowest rfl (by decide)
  have hdrop : t0.req &&& ~~~channelLine 2 = channelLine 5 := by decide
  have hwithdraw : t2 = { req := channelLine 5, grant := 0, outstanding := false } := by
    rw [← hdrop, show t2 = (t1.drop 2).evaluate from rfl, hgrant]
    exact Drq.evaluate_outstanding rfl
  have hnext : t3 = { t2 with grant := channelLine 5, outstanding := true } := by
    rw [show t3 = t2.evaluate from rfl, hwithdraw]
    exact Drq.evaluate_lowest rfl (by decide)
  rw [hnext, hwithdraw, hgrant]
  exact ⟨rfl, rfl, rfl, rfl, rfl, rfl, rfl⟩

end Sys2Proof.Machine
end

section
/-! Encoding and decoding undo each other (spec 30_encoding.md R81 to R91). -/

namespace Sys2Proof

/-! Decoding, by the opcode field of the word -/

/-- The word of an operate instruction decodes by its bits alone. -/
theorem decode_encodeOpr (b : OprBits) : decode (encodeOpr b) = decodeOpr b := by
  simp only [decode, decodeWith, opField_encodeOpr, OprBits.ofWord_encodeOpr]
  rfl

/-- The word of an IOT instruction decodes by bits 13:12 and its fields. -/
theorem decode_encodeIot (ign : BitVec 2) (b : IotBits) : decode (encodeIot ign b) = decodeIot ign b := by
  simp only [decode, decodeWith, opField_encodeIot, ign_encodeIot, IotBits.ofWord_encodeIot]
  rfl

/-- Each name of R86 stands for the bits of its own row. -/
theorem decodeOpr_oprNames : ∀ p ∈ oprNames, decodeOpr p.1 = p.2 := by decide

/-- Each name of R87 stands for the fields of its own row. -/
theorem decodeIot_iotNames (ign : BitVec 2) : ∀ p ∈ iotNames ign, decodeIot ign p.1 = p.2 := by
  revert ign; decide

/-- A named operate instruction is decoded from its word (R86). -/
theorem decode_encode_oprName {i : Instr} (h : i ∈ oprNames.map Prod.snd) : decode (encode i) = i := by
  obtain ⟨p, hp, rfl⟩ := List.mem_map.1 h
  rw [oprNames_encode p hp, decode_encodeOpr, decodeOpr_oprNames p hp]

/-- A named IOT instruction is decoded from its word (R87). -/
theorem decode_encode_iotName {i : Instr} {ign : BitVec 2} (h : i ∈ (iotNames ign).map Prod.snd) :
    decode (encode i) = i := by
  obtain ⟨p, hp, rfl⟩ := List.mem_map.1 h
  rw [iotNames_encode ign p hp, decode_encodeIot, decodeIot_iotNames ign p hp]

/-- Settles O1, by the formats: memory reference, the two operand words of opcodes 0 and 13, and OPR and IOT with and without
a name. -/
theorem decodeOfEncodeIsIdentity : Obligations.DecodeOfEncodeIsIdentity := by
  intro i hwf
  cases i with
  | cal low | eae low =>
    have hlow : ∀ op : BitVec 4, (op ++ low : Word).extractLsb' 0 14 = low :=
      fun _ => BitVec.extractLsb'_append_eq_right
    simp only [encode, decode, decodeWith, opField_append, hlow]
    rfl
  | dac ind y | jms ind y | dzm ind y | lac ind y | xor ind y | add ind y | tad ind y | xct ind y | isz ind y
  | and ind y | sad ind y | jmp ind y =>
    simp only [encode, decode, decodeWith, opField_encodeMr, ind_encodeMr, y_encodeMr]
    rfl
  | iot ign b => exact (decode_encodeIot ign b).trans (decodeIot_unnamed hwf)
  | opr b => exact (decode_encodeOpr b).trans (decodeOpr_unnamed hwf)
  | clsf ign | clof ign | clon ign | rsf ign | rcf ign | rrb ign | rsa ign | rsb ign | tsf ign | tcf ign | tls ign =>
    exact decode_encode_iotName (ign := ign) (by simp [iotNames])
  | _ => exact decode_encode_oprName (by decide)

/-- The operate word with these bits is well formed, by its name or without one. -/
theorem wf_decodeOpr (b : OprBits) : (decodeOpr b).wf = true := by
  have named : ∀ p ∈ oprNames, p.2.wf = true := by decide
  unfold decodeOpr
  cases h : oprNames.lookup b with
  | none => simpa [Instr.wf, oprNames_keys] using not_mem_of_lookup_none h
  | some i => exact named _ (lookup_mem h)

/-- The IOT word with these fields is well formed, by its name or without one. -/
theorem wf_decodeIot (ign : BitVec 2) (b : IotBits) : (decodeIot ign b).wf = true := by
  have named : ∀ ign, ∀ p ∈ iotNames ign, p.2.wf = true := by decide
  unfold decodeIot
  cases h : (iotNames ign).lookup b with
  | none => simpa [Instr.wf, iotNames_keys] using not_mem_of_lookup_none h
  | some i => exact named ign _ (lookup_mem h)

/-- The opcode field of a word, from its number. -/
theorem opField_of_toNat {w : Word} {op : BitVec 4} (h : (w.extractLsb' 14 4).toNat = op.toNat) :
    w.extractLsb' 14 4 = op := BitVec.eq_of_toNat_eq h

/-- A memory-reference word is put together from its fields. -/
theorem encodeMr_of_opField {w : Word} {op : BitVec 4} (h : (w.extractLsb' 14 4).toNat = op.toNat) :
    encodeMr op (w.getLsbD 13) (w.extractLsb' 0 13) = w := by
  rw [← opField_of_toNat h, encodeMr_fields]

/-- A word of opcode 0 or 13 is put together from its opcode and its low bits. -/
theorem append_of_opField {w : Word} {op : BitVec 4} (h : (w.extractLsb' 14 4).toNat = op.toNat) :
    op ++ w.extractLsb' 0 14 = w := by
  rw [← opField_of_toNat h, append_fields]

/-- Settles O2, by the opcode of the word. -/
theorem encodeOfDecodeIsIdentity : Obligations.EncodeOfDecodeIsIdentity := by
  intro w
  unfold decode decodeWith
  have hlt := (w.extractLsb' 14 4).isLt
  split
  case h_1 h => exact ⟨append_of_opField h, rfl⟩
  case h_14 h => exact ⟨append_of_opField h, rfl⟩
  case h_15 h =>
    exact ⟨(encode_decodeIot _ _).trans (encodeIot_ofWord w (opField_of_toNat h)), wf_decodeIot _ _⟩
  case h_16 =>
    have h : (w.extractLsb' 14 4).toNat = 15 := by
      change (w.extractLsb' 14 4).toNat < 16 at hlt
      generalize (w.extractLsb' 14 4).toNat = n at *
      interval_cases n <;> simp_all
    exact ⟨(encode_decodeOpr _).trans (encodeOpr_ofWord w (opField_of_toNat h)), wf_decodeOpr _⟩
  all_goals exact ⟨encodeMr_of_opField (by assumption), rfl⟩

/-- Settles O3: the ten words are evaluated. -/
theorem sampleWordsDecode : Obligations.SampleWordsDecode := by
  unfold Obligations.SampleWordsDecode
  decide

end Sys2Proof
end

section
/-! What every instruction keeps and what every step keeps (spec 10_state.md R23 to R51; 60_exceptions.md R250, R251; 70
R284). -/

namespace Sys2Proof.Machine

/-! The diagnostics: events are added at the end, and none is a violation of the bus discipline -/

/-- t has the events of s and further ones, none of which is a violation of the bus discipline (R104, R251). -/
def State.LogsOn (s t : State) : Prop := ∃ l : List Diag, t.diags = s.diags ++ l ∧ ∀ d ∈ l, isProtocolError d = false

theorem State.LogsOn.of_eq {s t : State} (h : t.diags = s.diags) : s.LogsOn t := ⟨[], by simp [h], by simp⟩

theorem State.LogsOn.of_log {s t : State} {d : Diag} (h : t.diags = s.diags ++ [d]) (hd : isProtocolError d = false) :
    s.LogsOn t := ⟨[d], h, by simpa using hd⟩

theorem State.LogsOn.trans {s t u : State} (h : s.LogsOn t) (k : t.LogsOn u) : s.LogsOn u := by
  obtain ⟨l, hl, pl⟩ := h
  obtain ⟨m, hm, pm⟩ := k
  refine ⟨l ++ m, by rw [hm, hl, List.append_assoc], fun d hd => ?_⟩
  exact (List.mem_append.1 hd).elim (pl d) (pm d)

theorem State.LogsOn.diags_prefix {s t : State} (h : s.LogsOn t) : s.diags <+: t.diags := by
  obtain ⟨l, hl, -⟩ := h
  exact ⟨l, hl.symm⟩

/-- The first violation of the bus discipline is the same before and after. -/
theorem State.LogsOn.protocolError {s t : State} (h : s.LogsOn t) : t.protocolError = s.protocolError := by
  obtain ⟨l, hl, pl⟩ := h
  have none : l.find? isProtocolError = .none := List.find?_eq_none.2 fun d hd => by simp [pl d hd]
  simp [State.protocolError, hl, List.find?_append, none]

/-! What an instruction keeps -/

/-- What no instruction changes, or changes in one direction only. -/
structure State.ExecKeeps (s t : State) : Prop where
  mq : t.mq = s.mq
  stepReg : t.stepReg = s.stepReg
  ion : t.ion = s.ion
  params : t.params = s.params
  dataSwitches : t.dataSwitches = s.dataSwitches
  addressSwitches : t.addressSwitches = s.addressSwitches
  panelCode : t.panelCode = s.panelCode
  drq : t.drq = s.drq
  skip : t.skip = s.skip
  currentWord : t.currentWord = s.currentWord
  nextWord : t.nextWord = s.nextWord
  awaitNeutral : t.awaitNeutral = s.awaitNeutral
  /-- A halted machine is not set running. -/
  halted : s.run ≠ .running → t.run ≠ .running
  /-- The clock's flag only falls. -/
  rtcFlag : s.rtc.flag = false → t.rtc.flag = false
  /-- Bytes are emitted at the end of the sink. -/
  sink : s.sink <+: t.sink
  diags : s.LogsOn t

theorem State.ExecKeeps.trans {s t u : State} (h : s.ExecKeeps t) (k : t.ExecKeeps u) : s.ExecKeeps u where
  mq := k.mq.trans h.mq
  stepReg := k.stepReg.trans h.stepReg
  ion := k.ion.trans h.ion
  params := k.params.trans h.params
  dataSwitches := k.dataSwitches.trans h.dataSwitches
  addressSwitches := k.addressSwitches.trans h.addressSwitches
  panelCode := k.panelCode.trans h.panelCode
  drq := k.drq.trans h.drq
  skip := k.skip.trans h.skip
  currentWord := k.currentWord.trans h.currentWord
  nextWord := k.nextWord.trans h.nextWord
  awaitNeutral := k.awaitNeutral.trans h.awaitNeutral
  halted := k.halted ∘ h.halted
  rtcFlag := k.rtcFlag ∘ h.rtcFlag
  sink := h.sink.trans k.sink
  diags := h.diags.trans k.diags

theorem State.ExecKeeps.refl (s : State) : s.ExecKeeps s :=
  ⟨rfl, rfl, rfl, rfl, rfl, rfl, rfl, rfl, rfl, rfl, rfl, rfl, id, id, List.prefix_rfl, .of_eq rfl⟩

/-- An effective address is no exception. -/
theorem State.resolve_execKeeps (s : State) (ind : Bool) (y : BitVec 13) : s.ExecKeeps (s.resolve ind y) := by
  rw [State.resolve_eq]
  exact { State.ExecKeeps.refl s with }

/-- The operate group changes AC, Link, PC and RUN, and RUN to HALTED only. -/
theorem oprEffect_execKeeps (b : OprBits) (s : State) : s.ExecKeeps (oprEffect b s) := by
  have run : s.run ≠ .running → (oprEffect b s).run ≠ .running := by
    rw [oprEffect_run]
    cases b.hlt <;> simp
  rw [oprEffect_eq]
  exact { State.ExecKeeps.refl s with halted := run }

/-- An IOT may clear the clock's flag, emit one byte and log one unknown device, and sets no flag of the clock. -/
theorem iotEffect_execKeeps (b : IotBits) (s : State) : s.ExecKeeps (iotEffect b s) := by
  have out : (s.rtc.flag = false → (iotEffect b s).rtc.flag = false) ∧ s.sink <+: (iotEffect b s).sink ∧
      s.LogsOn (iotEffect b s) := by
    cases h : deviceOf b.dev with
    | none =>
      obtain ⟨-, -, hrtc, hsink, hdiags⟩ := iotEffect_unknown s h
      exact ⟨by simp [hrtc], by simp [hsink], .of_log hdiags rfl⟩
    | some d =>
      obtain ⟨-, -, hrtc, hsink, hdiags⟩ := iotEffect_known s h
      refine ⟨fun hf => by simp [hrtc, hf], ?_, .of_eq hdiags⟩
      rw [hsink]
      split
      · exact List.prefix_append _ _
      · exact List.prefix_rfl
  obtain ⟨hflag, hsink, hdiags⟩ := out
  rw [iotEffect_eq]
  exact { State.ExecKeeps.refl s with rtcFlag := hflag, sink := hsink, diags := hdiags }

/-- An instruction other than XCT keeps what `ExecKeeps` lists. -/
theorem exec_keeps_of_not_xct {i : Instr} {s t : State} (hx : isXct i = false) (h : exec i s = .next t) :
    s.ExecKeeps t := by
  rcases exec_cases hx h with ⟨-, b, -, rfl⟩ | ⟨-, b, rfl⟩ | ⟨-, rfl⟩ | ⟨ind, y, hmr⟩
  · exact oprEffect_execKeeps b s
  · exact iotEffect_execKeeps b s
  · exact { State.ExecKeeps.refl s with halted := fun _ => by simp, diags := .of_log rfl rfl }
  · have he := State.resolve_execKeeps s ind y
    rcases hmr with ⟨-, v, rfl⟩ | ⟨-, rfl⟩ | ⟨-, a, rfl⟩ | ⟨-, v, c, rfl⟩ | ⟨-, d, c, rfl⟩ | ⟨-, a, rfl⟩ | ⟨-, a, l, rfl⟩
    · exact { he with }
    · exact { he with }
    · exact { he with rtcFlag := fun hf => by simp [hf] }
    · exact { he with }
    · exact { he with }
    · exact { he with }
    · exact { he with }

/-- Every instruction, an XCT chain with them, keeps what `ExecKeeps` lists. -/
theorem exec_keeps {i : Instr} {s t : State} (h : exec i s = .next t) : s.ExecKeeps t :=
  exec_induction State.ExecKeeps State.ExecKeeps.trans
    (fun s ind y => { State.resolve_execKeeps s ind y with }) (fun s => { State.ExecKeeps.refl s with })
    exec_keeps_of_not_xct h

/-- Settles O55: all of it is listed in `ExecKeeps`. -/
theorem noInstructionWritesThese : Obligations.NoInstructionWritesThese := by
  intro i s t h
  have k := exec_keeps h
  exact ⟨k.mq, k.stepReg, k.ion, k.params, k.dataSwitches, k.addressSwitches, k.panelCode, k.drq, k.skip, k.currentWord,
    k.nextWord, k.awaitNeutral, k.halted⟩

/-! What a step keeps -/

/-- What no step changes, or changes in one direction only. -/
structure State.StepKeeps (s t : State) : Prop where
  params : t.params = s.params
  dataSwitches : t.dataSwitches = s.dataSwitches
  addressSwitches : t.addressSwitches = s.addressSwitches
  panelCode : t.panelCode = s.panelCode
  ion : t.ion = s.ion
  rtcFlag : s.rtc.flag = false → t.rtc.flag = false
  sink : s.sink <+: t.sink
  diags : s.LogsOn t

theorem State.StepKeeps.refl (s : State) : s.StepKeeps s :=
  ⟨rfl, rfl, rfl, rfl, rfl, id, List.prefix_rfl, .of_eq rfl⟩

theorem State.StepKeeps.trans {s t u : State} (h : s.StepKeeps t) (k : t.StepKeeps u) : s.StepKeeps u where
  params := k.params.trans h.params
  dataSwitches := k.dataSwitches.trans h.dataSwitches
  addressSwitches := k.addressSwitches.trans h.addressSwitches
  panelCode := k.panelCode.trans h.panelCode
  ion := k.ion.trans h.ion
  rtcFlag := k.rtcFlag ∘ h.rtcFlag
  sink := h.sink.trans k.sink
  diags := h.diags.trans k.diags

/-- The cycles of the devices never change the clock's flag (R234, R236). -/
theorem State.advance_rtc_flag {n : Nat} {s t : State} (h : s.advance n = .next t) : t.rtc.flag = s.rtc.flag := by
  rw [State.advance_eq_cycles] at h
  exact State.cycles_induction (fun t => t.rtc.flag = s.rtc.flag) (fun hs _ => hs) rfl h

theorem State.advance_stepKeeps {n : Nat} {s t : State} (h : s.advance n = .next t) : s.StepKeeps t := by
  have flag := State.advance_rtc_flag h
  have eq := State.advance_eq h
  generalize t.rtc = rtc at flag eq
  rw [eq]
  exact { State.StepKeeps.refl s with rtcFlag := fun hf => flag.trans hf }

theorem State.ExecKeeps.stepKeeps {s t : State} (h : s.ExecKeeps t) : s.StepKeeps t := { h with }

/-- Every step keeps what `StepKeeps` lists: the cycles and the instructions do, and the other pieces of a step reach none of
it. -/
theorem step_keeps {s t : State} (h : step s = .next t) : s.StepKeeps t :=
  have other {a b : State} (h : a.StepKeeps a → a.StepKeeps b) : a.StepKeeps b := h (.refl a)
  step_induction State.StepKeeps .refl .trans (advance := State.advance_stepKeeps)
    (exec := fun h => (exec_keeps h).stepKeeps) (fetch := fun _ => other fun k => { k with })
    (loadIr := fun _ _ => other fun k => { k with }) (settle := fun _ => other fun k => { k with })
    (settlePanel := fun _ => other fun k => { k with }) (freeMb := fun _ => other fun k => { k with })
    (chain := fun _ => other fun k => { k with }) (await := fun _ _ => other fun k => { k with })
    (run := fun _ _ => other fun k => { k with }) (goTo := fun _ => other fun k => { k with })
    (examine := fun _ _ => other fun k => { k with }) (deposit := fun _ _ => other fun k => { k with }) h

/-- Settles O59, by what every step keeps. -/
theorem clockFlagNeverRises : Obligations.ClockFlagNeverRises := fun _ _ h => (step_keeps h).rtcFlag

/-- Settles O60: the events only grow, so a recorded fault stays, and a faulted state is no end of a run. -/
theorem stepKeepsParametersAndOutput : Obligations.StepKeepsParametersAndOutput := by
  intro s t h
  have k := step_keeps h
  refine ⟨k.params, k.dataSwitches, k.addressSwitches, k.panelCode, k.ion, k.sink, k.diags.diags_prefix,
    k.diags.protocolError, fun hs => ?_⟩
  have ht : t.faulted = true := State.faulted_of_prefix k.diags.diags_prefix hs
  exact ⟨ht, State.ended_of_faulted ht⟩

end Sys2Proof.Machine
end

section
/-! The invariant of the machine holds after reset and is kept by every step (spec 10_state.md; 20_memory.md section 1;
44_iot_coprocessor_devices.md sections 3 to 6). -/

namespace Sys2Proof.Machine

/-- An effective address writes at most one word of core, and nothing else that the invariant speaks of. -/
theorem State.resolve_inv {s : State} (h : s.Inv) (ind : Bool) (y : BitVec 13) : (s.resolve ind y).Inv := by
  have mem := State.resolve_mem_wf s ind y h.mem
  rw [State.resolve_eq]
  exact { h with mem := mem }

theorem oprEffect_inv {s : State} (h : s.Inv) (b : OprBits) : (oprEffect b s).Inv := by
  rw [oprEffect_eq]
  exact { h with }

/-- An IOT starts, clears or leaves its device, which each keep what the invariant says of the devices, and brings the
coprocessor to rest. -/
theorem iotEffect_inv {s : State} (h : s.Inv) (b : IotBits) : (iotEffect b s).Inv := by
  have device : (iotEffect b s).rdr.Ok ∧ (iotEffect b s).tty.Ok ∧ (iotEffect b s).rtc.count ≤ s.params.rtcThreshold ∧
      (iotEffect b s).rtc.drq = false := by
    have hcount := h.count
    obtain ⟨-, -, -, hdrq⟩ := h.drq
    cases hd : deviceOf b.dev with
    | none =>
      obtain ⟨hr, ht, hc, -, -⟩ := iotEffect_unknown s hd
      rw [hr, ht, hc]
      exact ⟨h.rdr, h.tty, hcount, hdrq⟩
    | some d =>
      obtain ⟨hr, ht, hc, -, -⟩ := iotEffect_known s hd
      rw [hr, ht, hc]
      refine ⟨?_, ?_, ?_, ?_⟩
      · split
        · exact Reader.start_ok h.rdr _
        · exact h.rdr
      · split
        · exact Teleprinter.print_ok _ _
        · exact ⟨h.tty.1, fun h0 => by simp [h.tty.2 h0]⟩
      · split
        · exact Nat.zero_le _
        · exact hcount
      · split <;> exact hdrq
  obtain ⟨hrdr, htty, hcount, hrtc⟩ := device
  obtain ⟨hreq, hgrant, hout, -⟩ := h.drq
  rw [iotEffect_eq]
  exact { h with iocp := rfl, rdr := hrdr, tty := htty, count := hcount, drq := ⟨hreq, hgrant, hout, hrtc⟩ }

/-- An instruction other than XCT keeps the invariant. -/
theorem exec_inv_of_not_xct {i : Instr} {s t : State} (hx : isXct i = false) (h : exec i s = .next t)
    (hs : s.Inv) : t.Inv := by
  rcases exec_cases hx h with ⟨-, b, -, rfl⟩ | ⟨-, b, rfl⟩ | ⟨-, rfl⟩ | ⟨ind, y, hmr⟩
  · exact oprEffect_inv hs b
  · exact iotEffect_inv hs b
  · exact { hs with }
  · have he := State.resolve_inv hs ind y
    rcases hmr with ⟨-, v, rfl⟩ | ⟨-, rfl⟩ | ⟨-, a, rfl⟩ | ⟨-, v, c, rfl⟩ | ⟨-, d, c, rfl⟩ | ⟨-, a, rfl⟩ | ⟨-, a, l, rfl⟩
    · exact { he with mem := Memory.wf_write _ _ he.mem }
    · exact { he with mem := Memory.wf_write _ _ he.mem }
    · exact { he with }
    · exact { he with mem := Memory.wf_write _ _ he.mem }
    · exact { he with }
    · exact { he with }
    · exact { he with }

/-- Every instruction keeps the invariant. -/
theorem exec_inv {i : Instr} {s t : State} (h : exec i s = .next t) : s.Inv → t.Inv :=
  exec_induction (fun s t => s.Inv → t.Inv) (fun h k => k ∘ h) (fun _ ind y hs => { State.resolve_inv hs ind y with })
    (fun _ hs => { hs with }) exec_inv_of_not_xct h

/-- A cycle that is not refused keeps the invariant: it has made no request, so the arbiter stays at rest (R244). -/
theorem State.tickDevices_inv {s : State} (hs : s.Inv) (h : s.cycle = .next s.tickDevices) : s.tickDevices.Inv := by
  obtain ⟨hreq, hgrant, hout, hrtc⟩ := hs.drq
  have quiet := State.cycle_no_request hout h
  have drq : s.tickDevices.drq = s.drq := by
    simp [State.tickDevices, quiet, Drq.evaluate_quiet hreq hout]
  refine { hs with
    rdr := Reader.tick_ok hs.rdr, tty := Teleprinter.tick_ok hs.tty, count := Clock.tick_count _ _
    drq := ⟨drq ▸ hreq, drq ▸ hgrant, drq ▸ hout, ?_⟩ }
  show (s.rtc.drq || (s.rtc.expires s.params.rtcThreshold && s.rtc.enable)) = false
  rw [hrtc, quiet]
  rfl

theorem State.advance_inv {n : Nat} {s t : State} (h : s.advance n = .next t) (hs : s.Inv) : t.Inv := by
  rw [State.advance_eq_cycles] at h
  exact State.cycles_induction State.Inv State.tickDevices_inv hs h

/-- Settles O57: the cycles, the instructions and the panel's deposit keep the invariant, and the other pieces of a step reach
none of it. -/
theorem stepKeepsInvariant : Obligations.StepKeepsInvariant := by
  intro s t hs h
  exact step_induction (fun s t => s.Inv → t.Inv) (fun _ => id) (fun h k => k ∘ h) (advance := State.advance_inv)
    (exec := exec_inv) (fetch := fun _ k => { k with }) (loadIr := fun _ _ k => { k with })
    (settle := fun _ k => { k with }) (settlePanel := fun _ k => { k with }) (freeMb := fun _ k => { k with })
    (chain := fun _ k => { k with }) (await := fun _ _ k => { k with }) (run := fun _ _ k => { k with })
    (goTo := fun _ k => { k with }) (examine := fun _ _ k => { k with })
    (deposit := fun _ _ k => { k with mem := Memory.wf_write _ _ k.mem }) h hs

/-- Settles O58: nothing is listed, the devices and the arbiter are at rest, and a counter of 0 is above no threshold. -/
theorem resetMeetsInvariant : Obligations.ResetMeetsInvariant where
  mem := State.reset_mem_wf
  mq := rfl
  stepReg := rfl
  ion := rfl
  iocp := rfl
  rdr := ⟨Nat.le_refl 0, Nat.le_refl 0⟩
  tty := ⟨Nat.zero_le _, fun h => absurd rfl h⟩
  count := Nat.zero_le _
  drq := ⟨rfl, rfl, rfl, rfl⟩

end Sys2Proof.Machine
end

section
/-! The effective addresses: direct, through an auto-index cell, and through a plain pointer (spec 41_memory_reference.md R140,
R141). -/

namespace Sys2Proof.Machine

/-- MAAI of a direct address is a matter of Y alone (R32, R140). -/
theorem State.autoIndex_directAddr (s : State) (y : BitVec 13) :
    s.params.autoIndex (s.directAddr y) = true ↔ s.params.autoIndexLo ≤ y ∧ y ≤ s.params.autoIndexHi := by
  simp [Params.autoIndex, State.directAddr, offset_mkAddr]

/-- A pointer is loaded into MA whole with EXT, and in the bank of the direct address without (R28, R141). -/
theorem State.latchAddr_directAddr (s : State) (y : BitVec 13) (v : Word) :
    latchAddr s.params.ext (s.directAddr y) v = if s.params.ext then v.extractLsb' 0 15
      else BitVec.append (s.ma.extractLsb' 13 2) (v.extractLsb' 0 13) := by
  rw [latchAddr, State.directAddr, bank_mkAddr]
  rfl

/-- Settles O8: a direct address changes MA only, and after a fetch its bank is that of PC. -/
theorem directAddressIsPageRelative : Obligations.DirectAddressIsPageRelative :=
  fun s y => ⟨State.resolve_direct s y, State.fetch_directAddr s y⟩

/-- Settles O9: Y in the range makes the reference one through the cell, which `resolve_auto` describes. -/
theorem autoIndexIncrementsItsCell : Obligations.AutoIndexIncrementsItsCell := by
  intro s y hlo hhi d cell v t
  have hcell : s.indexCell true y = some cell := by
    simp only [State.indexCell, (s.autoIndex_directAddr y).2 ⟨hlo, hhi⟩, Bool.and_self, if_true]
    rfl
  refine ⟨hcell, State.resolve_read_cell s true y hcell, fun a ha => ?_, ?_, State.resolve_eq s true y⟩
  · exact State.resolve_read s true y fun h => ha (Option.some.inj (hcell.symm.trans h)).symm
  · show (s.resolve true y).ma = _
    rw [State.resolve_auto s true y hcell]
    exact s.latchAddr_directAddr y v

/-- Settles O10: Y outside the range leaves the plain indirection. -/
theorem plainIndirectionReadsPointer : Obligations.PlainIndirectionReadsPointer := by
  intro s y hout d p
  have hcell : s.indexCell true y = none := by
    have hauto : s.params.autoIndex (s.directAddr y) = false :=
      Bool.eq_false_iff.2 fun h => hout ((s.autoIndex_directAddr y).1 h)
    simp [State.indexCell, hauto]
  refine ⟨hcell, ?_⟩
  rw [State.resolve_plain s y hcell, ← s.latchAddr_directAddr y p]
  rfl

end Sys2Proof.Machine
end

section
/-! The memory-reference instructions and JMS and JMP: one equation each, the sums, and the frames (spec
41_memory_reference.md R142 to R151; 42_control_transfer.md R161, R163). -/

namespace Sys2Proof.Machine

/-! Each instruction in the spec's transfers (G4) -/

section
variable {s : State} (h : s.params.family.transfers = {}) (ind : Bool) (y : BitVec 13)
include h

/-- The transfers after an effective address are those of before. -/
theorem State.resolve_transfers : (s.resolve ind y).params.family.transfers = {} := by rw [State.resolve_params, h]

theorem exec_xor : let e := s.resolve ind y
    exec (.xor ind y) s = .next { e with ac := s.ac ^^^ e.read e.ma } := by
  simp only [exec, execXor, State.resolve_transfers h, arith, State.resolve_ac]

theorem exec_and : let e := s.resolve ind y
    exec (.and ind y) s = .next { e with ac := s.ac &&& e.read e.ma } := by
  simp only [exec, execAnd, State.resolve_transfers h, arith, State.resolve_ac]

theorem exec_add : let e := s.resolve ind y
    let r := addOnes s.ac (e.read e.ma) s.link
    exec (.add ind y) s = .next { e with ac := r.1, link := r.2 } := by
  simp only [exec, execAdd, State.resolve_transfers h, arith, if_true, State.resolve_ac, State.resolve_link]

theorem exec_tad : let e := s.resolve ind y
    let r := addTwos s.ac (e.read e.ma) s.link
    exec (.tad ind y) s = .next { e with ac := r.1, link := r.2 } := by
  simp only [exec, execTad, State.resolve_transfers h, arith, Bool.false_eq_true, if_false, State.resolve_ac,
    State.resolve_link]

theorem exec_dac : let e := s.resolve ind y
    exec (.dac ind y) s = .next (e.write e.ma s.ac) := by
  simp only [exec, execDac, State.resolve_transfers h, State.storeValue, State.resolve_ac]

theorem exec_dzm : let e := s.resolve ind y
    exec (.dzm ind y) s = .next (e.write e.ma 0) := by
  simp only [exec, execDzm, State.resolve_transfers h, State.storeValue]

theorem exec_isz : let e := s.resolve ind y
    let v := e.read e.ma + 1
    exec (.isz ind y) s = .next (((e.write e.ma v).latchOb v).skipIf (decide (v = 0))) := by
  simp only [exec, execIsz, State.resolve_transfers h, skipStepTaken, zeroOf]

theorem exec_sad : let e := s.resolve ind y
    let d := s.ac ^^^ e.read e.ma
    exec (.sad ind y) s = .next ((e.latchOb d).skipIf (!decide (d = 0))) := by
  simp only [exec, execSad, State.resolve_transfers h, arith, skipStepTaken, zeroOf, State.resolve_ac]

end

/-- Settles O12, by the equations of XOR and AND. -/
theorem xorAndCombineAc : Obligations.XorAndCombineAc :=
  fun _ ind y h => ⟨⟨_, exec_xor h ind y, rfl⟩, ⟨_, exec_and h ind y, rfl⟩⟩

/-- Settles O15: the word stored is read back, and neither the store nor the effective address changes AC. -/
theorem dacAndDzmStore : Obligations.DacAndDzmStore := fun s ind y h =>
  ⟨⟨_, exec_dac h ind y, State.read_write_same _ _ _, State.resolve_ac s ind y⟩,
    ⟨_, exec_dzm h ind y, State.read_write_same _ _ _, State.resolve_ac s ind y⟩⟩

/-- Settles O16: the new word is stored, latched in OB and tested. -/
theorem iszIncrementsAndSkipsOnZero : Obligations.IszIncrementsAndSkipsOnZero := by
  intro s ind y h ea v
  have hsign : v.msb = v.getLsbD 17 := BitVec.msb_eq_getLsbD_last v
  refine ⟨_, exec_isz h ind y, State.read_write_same _ _ _, ?_, rfl, rfl, hsign, ?_, ?_⟩
  · simp only [State.skipIf_pc, State.latchOb_pc, State.write_pc, State.latchOb_params, State.write_params,
      State.resolve_pc, State.resolve_params, decide_eq_true_eq]
    rfl
  · exact State.resolve_link s ind y
  · exact State.resolve_ac s ind y

/-- Settles O17: the difference is 0 exactly when the two words are equal. -/
theorem sadSkipsWhenDifferent : Obligations.SadSkipsWhenDifferent := by
  intro s ind y h m
  refine ⟨_, exec_sad h ind y, ?_, rfl, State.resolve_ac s ind y, State.resolve_link s ind y⟩
  by_cases heq : s.ac = m
  · simp [m, heq]
  · simp [m, heq]

/-! The two sums -/

/-- The number of a 19-bit `link : v` (R9). -/
theorem toNat_withLink (link : Bool) (v : Word) : (withLink link v).toNat = link.toNat * 2 ^ 18 + v.toNat := by
  rw [withLink, BitVec.toNat_append, BitVec.toNat_ofBool, ← Nat.shiftLeft_add_eq_or_of_lt v.isLt, Nat.shiftLeft_eq]

/-- A 19-bit number is its top bit and its low 18 bits. -/
theorem toNat_msb_lowWord (x : BitVec 19) : x.msb.toNat * 2 ^ 18 + (lowWord x).toNat = x.toNat := by
  have hx := x.isLt
  rw [lowWord, BitVec.extractLsb'_toNat, BitVec.msb_eq_decide, Nat.shiftRight_zero]
  by_cases h : 2 ^ 18 ≤ x.toNat
  · rw [decide_eq_true h, Bool.toNat_true]
    omega
  · rw [decide_eq_false h, Bool.toNat_false]
    omega

/-- Settles O14: the 19-bit sum is taken apart into its top bit and its low word. -/
theorem tadIsNineteenBitSum : Obligations.TadIsNineteenBitSum := by
  intro s ind y h m
  refine ⟨_, exec_tad h ind y, (toNat_msb_lowWord _).trans ?_⟩
  rw [BitVec.toNat_add, toNat_withLink, toNat_withLink, Bool.toNat_false, Nat.zero_mul, Nat.zero_add]

/-- The carry out of bit 17 is added back, and cannot carry out again (R108). -/
theorem toNat_endAround (a b : Word) :
    (endAround a b).toNat = (a.toNat + b.toNat) % 2 ^ 18 + (a.toNat + b.toNat) / 2 ^ 18 := by
  have ha := a.isLt
  have hb := b.isLt
  have hsum : (withLink false a + withLink false b).toNat = a.toNat + b.toNat := by
    rw [BitVec.toNat_add, toNat_withLink, toNat_withLink, Bool.toNat_false]
    omega
  have hparts := toNat_msb_lowWord (withLink false a + withLink false b)
  have hlow := (lowWord (withLink false a + withLink false b)).isLt
  have hcarry : ∀ c : Bool, (if c then 1 else 0 : Word).toNat = c.toNat := by decide
  rw [hsum] at hparts
  rw [endAround, BitVec.toNat_add, hcarry]
  omega

/-- Settles O13: the sum is `toNat_endAround`, and the Link is the old one or the overflow of R108. -/
theorem addIsOnesComplementWithStickyLink : Obligations.AddIsOnesComplementWithStickyLink := by
  intro s ind y h m sum r
  have hr : (endAround s.ac m).toNat = r := toNat_endAround s.ac m
  have hword : BitVec.ofNat 18 r = endAround s.ac m := by rw [← hr, BitVec.ofNat_toNat, BitVec.setWidth_eq]
  refine ⟨_, exec_add h ind y, hr, ?_⟩
  rw [hword]
  simp only [addOnes, Bool.or_eq_true, Bool.and_eq_true, beq_iff_eq, bne_iff_ne, BitVec.msb_eq_getLsbD_last]
  rfl

/-! The frames, in every choice of the transfers -/

section
variable (s : State) (ind : Bool) (y : BitVec 13)

/-- Core as an effective address leaves it differs in the auto-index cell only. -/
theorem State.read_of_resolve_mem {t : State} (h : t.mem = (s.resolve ind y).mem) (a : Addr)
    (ha : s.indexCell ind y ≠ some a) : t.read a = s.read a := by
  rw [State.read, h]
  exact State.resolve_read s ind y ha

/-- Core with one more word stored at EA differs in the auto-index cell and at EA only. -/
theorem State.read_of_resolve_write {t : State} {v : Word}
    (h : t.mem = (s.resolve ind y).mem.write (s.resolve ind y).ma v) (a : Addr) (ha : s.indexCell ind y ≠ some a)
    (hea : a ≠ (s.resolve ind y).ma) : t.read a = s.read a := by
  rw [State.read, h, Memory.read_write_other _ _ hea]
  exact State.resolve_read s ind y ha

end

/-- Settles O18: each instruction changes the registers named of what `resolve` leaves, and `resolve_eq` says what that is. -/
theorem loadingInstructionsFrame : Obligations.LoadingInstructionsFrame := by
  intro s t ind y e
  have he := State.resolve_eq s ind y
  refine ⟨fun h => ?_, fun h => ?_, fun h => ?_⟩
  · have ht : t = { e with ac := t.ac } := by rcases h with h | h | h <;> cases h <;> rfl
    exact ⟨ht.trans (congrArg (fun u : State => { u with ac := t.ac }) he),
      State.read_of_resolve_mem s ind y (by rw [ht])⟩
  · have ht : t = { e with ac := t.ac, link := t.link } := by rcases h with h | h <;> cases h <;> rfl
    exact ⟨ht.trans (congrArg (fun u : State => { u with ac := t.ac, link := t.link }) he),
      State.read_of_resolve_mem s ind y (by rw [ht])⟩
  · have ht : t = { e with pc := t.pc, ob := t.ob, zero := t.zero, sign := t.sign } := by cases h; rfl
    exact ⟨ht.trans (congrArg (fun u : State => { u with pc := t.pc, ob := t.ob, zero := t.zero, sign := t.sign }) he),
      State.read_of_resolve_mem s ind y (by rw [ht])⟩

/-- Settles O19: each instruction stores one word at the EA that `resolve` leaves, and changes the registers named. -/
theorem storingInstructionsFrame : Obligations.StoringInstructionsFrame := by
  intro s t ind y e
  have he := State.resolve_eq s ind y
  refine ⟨fun h => ?_, fun h => ?_, fun h => ?_⟩
  · have ht : ∃ v, t = e.write e.ma v := by rcases h with h | h <;> cases h <;> exact ⟨_, rfl⟩
    obtain ⟨v, ht⟩ := ht
    have hmem : t.mem = e.mem.write e.ma v := congrArg State.mem ht
    refine ⟨?_, State.read_of_resolve_write s ind y hmem⟩
    rw [hmem]
    exact ht.trans (congrArg (fun u : State => { u with mem := e.mem.write e.ma v }) he)
  · have ht : t = { e with pc := t.pc, ob := t.ob, zero := t.zero, sign := t.sign, mem := t.mem } := by cases h; rfl
    have hmem : ∃ v, t.mem = e.mem.write e.ma v := by cases h; exact ⟨_, rfl⟩
    obtain ⟨v, hmem⟩ := hmem
    exact ⟨ht.trans (congrArg (fun u : State =>
      { u with pc := t.pc, ob := t.ob, zero := t.zero, sign := t.sign, mem := t.mem }) he),
      State.read_of_resolve_write s ind y hmem⟩
  · have ht : t = { e with pc := t.pc, mb := t.mb, ob := t.ob, zero := t.zero, sign := t.sign, mem := t.mem } := by
      cases h; rfl
    have hmem : t.mem = e.mem.write e.ma (addrWord e.pc) := by cases h; rfl
    exact ⟨ht.trans (congrArg (fun u : State =>
      { u with pc := t.pc, mb := t.mb, ob := t.ob, zero := t.zero, sign := t.sign, mem := t.mem }) he),
      State.read_of_resolve_write s ind y hmem⟩

/-! JMS, JMP and opcode 13 -/

/-- JMS stores PC at EA and goes to the word after it, through MB and OB (R161). -/
theorem exec_jms (s : State) (ind : Bool) (y : BitVec 13) : let e := s.resolve ind y
    let ret := addrWord s.pc
    exec (.jms ind y) s = .next { ({ e with mb := ret }.latchOb ret).write e.ma ret with pc := e.ma + 1 } := by
  simp only [exec, execJms, State.resolve_pc]

/-- An address as an 18-bit word is its own number (D9). -/
theorem addrWord_eq (a : Addr) : addrWord a = BitVec.ofNat 18 a.toNat :=
  (BitVec.ofNat_toNat 18 a).symm

/-- Settles O20, by the equation of JMS. -/
theorem jmsStoresReturnAddress : Obligations.JmsStoresReturnAddress := by
  intro s ind y ea
  rw [← addrWord_eq]
  exact ⟨_, exec_jms s ind y, State.read_write_same _ _ _, rfl, State.resolve_ac s ind y, State.resolve_link s ind y,
    rfl, rfl⟩

/-- JMP goes to the jump target of EA, and clears the clock's flag in the indirect form only (R163, R236). -/
theorem exec_jmp (s : State) (ind : Bool) (y : BitVec 13) : let e := s.resolve ind y
    exec (.jmp ind y) s = .next { e with
      pc := jumpPc s.params.family.transfers.jmp e.pc e.ma
      rtc := { s.rtc with flag := if ind then false else s.rtc.flag } } := by
  simp only [← State.resolve_params s ind y, ← State.resolve_rtc s ind y]
  cases ind <;> rfl

/-- Settles O21: the equation of JMP, and `resolve_eq` for what the effective address leaves. -/
theorem jmpGoesToEa : Obligations.JmpGoesToEa := by
  intro s ind y e
  refine ⟨_, exec_jmp s ind y, fun h => ?_, ?_, State.read_of_resolve_mem s ind y rfl⟩
  · show jumpPc s.params.family.transfers.jmp e.pc e.ma = e.ma
    rw [h]
    rfl
  · exact congrArg (fun u : State => { u with
      pc := jumpPc s.params.family.transfers.jmp e.pc e.ma
      rtc := { s.rtc with flag := if ind then false else s.rtc.flag } }) (State.resolve_eq s ind y)

/-- Settles O25: the event logged is the fault of the program. -/
theorem opcode13HaltsWithDiagnostic : Obligations.Opcode13HaltsWithDiagnostic := by
  intro s low
  have hfault : ((s.log (.notImplemented s.ir)).halt .notImplemented).programFault = true := by
    simp [State.programFault, State.log, State.halt, isNotImplemented]
  refine ⟨(s.log (.notImplemented s.ir)).halt .notImplemented, rfl, rfl, hfault, State.ended_of_faulted ?_⟩
  rw [State.faulted, hfault, Bool.true_or]

end Sys2Proof.Machine
end

section
/-! Which instructions complete, and that none and no step ends in a fault (spec 60_exceptions.md R250; 70 R295), and what each
may write (10_state.md R29, R48 to R50). -/

namespace Sys2Proof.Machine

/-- An instruction that is no CAL, no XCT and no refused operate word completes (R295). -/
theorem exec_completes {i : Instr} (s : State) (h0 : i.opcode ≠ 0) (h8 : i.opcode ≠ 8)
    (hopr : ∀ b, i = .opr b → oprRefusal b = none) : ∃ t, exec i s = .next t := by
  cases i with
  | cal low => exact absurd rfl h0
  | xct ind y => exact absurd rfl h8
  | opr b => exact ⟨_, oprGroup_eq_next.2 ⟨hopr b rfl, rfl⟩⟩
  | _ => exact ⟨_, rfl⟩

/-- No fault ends it: it goes on or is refused. -/
def NoFault (o : Result) : Prop := ∀ f : Fault, o ≠ .fault f

theorem noFault_next (s : State) : NoFault (.next s) := by rintro f ⟨⟩

theorem noFault_refused (r : Refusal) : NoFault (.refused r) := by rintro f ⟨⟩

theorem noFault_andThen {o : Result} {g : State → Result} (ho : NoFault o) (hg : ∀ s, NoFault (g s)) :
    NoFault (andThen o g) := by
  cases o with
  | next s => exact hg s
  | fault r => exact absurd rfl (ho r)
  | refused r => exact noFault_refused r

theorem oprGroup_noFault (b : OprBits) (s : State) : NoFault (oprGroup b s) := by
  unfold oprGroup
  cases oprRefusal b with
  | none => exact noFault_next _
  | some r => exact noFault_refused r

theorem exec_noFault_of_not_xct {i : Instr} (hx : isXct i = false) (s : State) : NoFault (exec i s) := by
  by_cases h0 : i.opcode = 0
  · cases i with
    | cal low => exact noFault_refused _
    | _ => exact absurd h0 (by simp [Instr.opcode])
  by_cases hopr : ∃ b, i = .opr b
  · obtain ⟨b, rfl⟩ := hopr
    exact oprGroup_noFault b s
  · have h8 : i.opcode ≠ 8 := fun h => by simp [isXct_eq_true.2 h] at hx
    obtain ⟨t, ht⟩ := exec_completes s h0 h8 fun b hb => absurd ⟨b, hb⟩ hopr
    rw [ht]
    exact noFault_next t

theorem exists_of_isXct {i : Instr} (hx : isXct i = true) : ∃ ind y, i = .xct ind y := by
  cases i with
  | xct ind y => exact ⟨ind, y, rfl⟩
  | _ => simp [isXct] at hx

theorem execChain_noFault (n : Nat) (i : Instr) (s : State) : NoFault (execChain n i s) := by
  induction n generalizing i s with
  | zero =>
    cases hx : isXct i with
    | false => exact execChain_eq_exec hx 0 s ▸ exec_noFault_of_not_xct hx s
    | true =>
      obtain ⟨ind, y, rfl⟩ := exists_of_isXct hx
      exact noFault_next _
  | succ n ih =>
    cases hx : isXct i with
    | false => exact execChain_eq_exec hx (n + 1) s ▸ exec_noFault_of_not_xct hx s
    | true =>
      obtain ⟨ind, y, rfl⟩ := exists_of_isXct hx
      exact ih _ _

/-- An instruction is the chain of XCT that it starts, of no link if it is no XCT. -/
theorem exec_eq_execChain (i : Instr) (s : State) : exec i s = execChain chainLinks i s := by
  cases hx : isXct i with
  | false => exact (execChain_eq_exec hx chainLinks s).symm
  | true =>
    obtain ⟨ind, y, rfl⟩ := exists_of_isXct hx
    exact exec_xct ind y s

theorem exec_noFault (i : Instr) (s : State) : NoFault (exec i s) :=
  exec_eq_execChain i s ▸ execChain_noFault chainLinks i s

theorem State.cycle_noFault (s : State) : NoFault s.cycle := by
  unfold State.cycle
  split
  · exact noFault_refused _
  · split
    · exact noFault_next _
    · exact noFault_refused _

theorem State.advance_noFault (n : Nat) (s : State) : NoFault (s.advance n) := by
  rw [State.advance_eq_cycles]
  induction n generalizing s with
  | zero => exact noFault_next s
  | succ n ih => exact noFault_andThen s.cycle_noFault ih

theorem State.runLoaded_noFault (s : State) : NoFault s.runLoaded :=
  noFault_andThen (s.advance_noFault _) fun _ => noFault_andThen (exec_noFault _ _) fun u =>
    noFault_andThen (u.advance_noFault _) fun _ => noFault_next _

theorem State.idleCycle_noFault (s : State) : NoFault s.idleCycle :=
  noFault_andThen (s.advance_noFault 1) fun _ => noFault_next _

theorem State.panelEffect_noFault (s : State) (effect : State → State) : NoFault (s.panelEffect effect) :=
  noFault_andThen (s.advance_noFault _) fun _ => noFault_next _

theorem State.panelRun_noFault {s : State} {run : State → Result} (h : NoFault (run s)) : NoFault (s.panelRun run) :=
  noFault_andThen h fun _ => noFault_next _

theorem State.haltedStep_noFault (s : State) : NoFault s.haltedStep := by
  unfold State.haltedStep
  cases s.panelAction with
  | neutral | readIn => exact s.idleCycle_noFault
  | haltStep =>
    exact State.panelRun_noFault (noFault_andThen (State.runLoaded_noFault _) fun _ => noFault_next _)
  | execute => exact State.panelRun_noFault (State.runLoaded_noFault _)
  | _ => exact s.panelEffect_noFault _

/-- No step ends in a fault (R250). -/
theorem step_noFault (s : State) : NoFault (step s) := by
  unfold step
  split
  · exact noFault_refused _
  split
  · exact State.runLoaded_noFault _
  split
  · exact noFault_andThen s.idleCycle_noFault fun _ => noFault_next _
  split
  · unfold State.runningStep
    split
    · exact s.panelEffect_noFault _
    · exact State.runLoaded_noFault _
  · exact s.haltedStep_noFault

/-- Settles O54, by `exec_completes` and the absence of faults in exec and in step. -/
theorem instructionsComplete : Obligations.InstructionsComplete :=
  ⟨fun _ s h0 h8 hopr => exec_completes s h0 h8 fun b hb => oprRefusal_eq_none.2 (hopr b hb), exec_noFault, step_noFault⟩

/-- What an instruction with this opcode may write of the Link, RUN, the devices, the sink and the clock. -/
def OnlyWritesOf (i : Instr) (s t : State) : Prop :=
  (i.opcode ≠ 6 → i.opcode ≠ 7 → i.opcode ≠ 15 → t.link = s.link) ∧
  (i.opcode ≠ 13 → i.opcode ≠ 15 → t.run = s.run) ∧
  (i.opcode ≠ 14 → t.rdr = s.rdr ∧ t.tty = s.tty ∧ t.sink = s.sink ∧ t.rtc = { s.rtc with flag := t.rtc.flag }) ∧
  (i.opcode ≠ 14 → (∀ y, i ≠ .jmp true y) → t.rtc = s.rtc)

/-- Settles O56, by the opcode: the operate group, IOT, opcode 13, and the instructions with an effective address. -/
theorem onlyTheseInstructionsWrite : Obligations.OnlyTheseInstructionsWrite := by
  intro i s t h h8
  have hx : isXct i = false := Bool.eq_false_iff.2 fun hx => h8 (isXct_eq_true.1 hx)
  rcases exec_cases hx h with ⟨ho, b, -, rfl⟩ | ⟨ho, b, rfl⟩ | ⟨ho, rfl⟩ | ⟨ind, y, hmr⟩
  · rw [oprEffect_eq]
    exact ⟨fun _ _ h15 => absurd ho h15, fun _ h15 => absurd ho h15, fun _ => ⟨rfl, rfl, rfl, rfl⟩, fun _ _ => rfl⟩
  · rw [iotEffect_eq]
    exact ⟨fun _ _ _ => rfl, fun _ _ => rfl, fun h14 => absurd ho h14, fun h14 => absurd ho h14⟩
  · exact ⟨fun _ _ _ => rfl, fun h13 => absurd ho h13, fun _ => ⟨rfl, rfl, rfl, rfl⟩, fun _ _ => rfl⟩
  · have hlink := State.resolve_link s ind y
    have hrun := State.resolve_run s ind y
    have hrtc := State.resolve_rtc s ind y
    have hdevices : ∀ flag, (s.resolve ind y).rdr = s.rdr ∧ (s.resolve ind y).tty = s.tty ∧
        (s.resolve ind y).sink = s.sink ∧ { (s.resolve ind y).rtc with flag := flag } = { s.rtc with flag := flag } := by
      simp
    have keeps : OnlyWritesOf i s (s.resolve ind y) :=
      ⟨fun _ _ _ => hlink, fun _ _ => hrun, fun _ => hdevices _, fun _ _ => hrtc⟩
    rcases hmr with ⟨-, v, rfl⟩ | ⟨-, rfl⟩ | ⟨rfl, a, rfl⟩ | ⟨-, v, c, rfl⟩ | ⟨-, d, c, rfl⟩ | ⟨-, a, rfl⟩ |
      ⟨hi, a, l, rfl⟩
    · exact keeps
    · exact keeps
    · refine ⟨fun _ _ _ => hlink, fun _ _ => hrun, fun _ => hdevices _, fun _ hne => ?_⟩
      cases ind with
      | true => exact absurd rfl (hne y)
      | false => exact hrtc
    · exact keeps
    · exact keeps
    · exact keeps
    · refine ⟨fun h6 h7 => ?_, fun _ _ => hrun, fun _ => hdevices _, fun _ _ => hrtc⟩
      rcases hi with rfl | rfl
      · exact absurd rfl h6
      · exact absurd rfl h7

end Sys2Proof.Machine
end

section
/-! XCT: one link, a chain of links, and a chain that never ends (spec 42_control_transfer.md R166; 93 U18). -/

namespace Sys2Proof.Machine

theorem State.xctLink_params (s : State) (ind : Bool) (y : BitVec 13) : (s.xctLink ind y).params = s.params :=
  State.resolve_params s ind y

/-- A chain whose first n instructions are the links of i and u goes on with the next of them, n links fewer to follow. -/
theorem execChain_links {i : Nat → Instr} {u : Nat → State} {n : Nat}
    (links : ∀ k < n, ∃ ind y, i k = .xct ind y ∧ u (k + 1) = (u k).xctLink ind y ∧
      i (k + 1) = decodeWith (u (k + 1)).params.family.layout (u (k + 1)).ir) (m : Nat) :
    execChain (m + n) (i 0) (u 0) = execChain m (i n) (u n) := by
  induction n generalizing m with
  | zero => rfl
  | succ n ih =>
    obtain ⟨ind, y, hi, hu, hnext⟩ := links n (Nat.lt_succ_self n)
    have hbefore := ih (fun k hk => links k (hk.trans (Nat.lt_succ_self n))) (m + 1)
    rw [show m + (n + 1) = m + 1 + n by omega, hbefore, hi, execChain_succ_xct, ← hu, ← hnext]

/-- An XCT whose target is no XCT is its link and then the execution of the target (R166). -/
theorem exec_xct_target {s : State} {ind : Bool} {y : BitVec 13} {i : Instr}
    (hi : decodeWith (s.xctLink ind y).params.family.layout (s.xctLink ind y).ir = i) (h8 : i.opcode ≠ 8) :
    exec (.xct ind y) s = exec i (s.xctLink ind y) := by
  have hx : isXct i = false := Bool.eq_false_iff.2 fun hx => h8 (isXct_eq_true.1 hx)
  rw [exec_xct_of_target (by rw [hi]; exact hx), hi]

/-- Settles O22: one link with `exec_xct_target`, and any number of them with `execChain_links`. -/
theorem xctExecutesItsTarget : Obligations.XctExecutesItsTarget := by
  constructor
  · intro s ind y h e w u i
    have hlink : s.xctLink ind y = u := by
      rw [State.xctLink_ofPc (by rw [h])]
      exact congrArg (fun pc : Addr => ({ e with ir := w, ma := mkAddr (bank pc) (w.extractLsb' 0 13) } : State))
        (State.resolve_pc s ind y)
    have hi : decodeWith (s.xctLink ind y).params.family.layout (s.xctLink ind y).ir = i := by
      rw [State.xctLink_params, State.xctLink_ir]
    refine ⟨hlink, fun h8 => ?_⟩
    have hexec : exec (.xct ind y) s = exec i u := hlink ▸ exec_xct_target hi h8
    refine ⟨hexec, fun h0 hopr => ?_⟩
    obtain ⟨t, ht⟩ := exec_completes u h0 h8 fun b hb => oprRefusal_eq_none.2 (hopr b hb)
    exact ⟨t, hexec.trans ht, ht⟩
  · intro i u links
    refine ⟨fun n hn hlinks h8 => ?_, fun hlinks => ?_⟩
    · have hx : isXct (i n) = false := Bool.eq_false_iff.2 fun hx => h8 (isXct_eq_true.1 hx)
      have hchain := execChain_links hlinks (chainLinks - n)
      rw [Nat.sub_add_cancel hn, execChain_eq_exec hx] at hchain
      rw [exec_eq_execChain, hchain]
    · have hchain := execChain_links (fun k hk => hlinks k (hk.trans (Nat.lt_succ_self _))) 0
      obtain ⟨ind, y, hi, hu, -⟩ := hlinks chainLinks (Nat.lt_succ_self _)
      rw [Nat.zero_add, hi, execChain_zero_xct, ← hu] at hchain
      rw [exec_eq_execChain, hchain]

/-! The XCT of itself -/

/-- The word in IR is a direct XCT of a cell, in the bank of PC and of MA, that holds the same word (U18). -/
structure State.SelfXct (s : State) (y : BitVec 13) : Prop where
  word : decodeWith s.params.family.layout s.ir = .xct false y
  sameBank : bank s.ma = bank s.pc
  cell : s.read (mkAddr (bank s.pc) y) = s.ir

/-- A link of an XCT of itself changes MA only, and not its bank, in either choice of the bank. -/
theorem State.SelfXct.xctLink_eq {s : State} {y : BitVec 13} (h : s.SelfXct y) :
    ∃ m, bank m = bank s.pc ∧ s.xctLink false y = { s with ma := m } := by
  have hea : s.directAddr y = mkAddr (bank s.pc) y := by rw [State.directAddr, h.sameBank]
  have hir : (s.xctLink false y).ir = s.ir := by
    rw [State.xctLink_ir, State.resolve_direct, hea]
    exact h.cell
  refine ⟨(s.xctLink false y).ma, ?_, ?_⟩
  · refine (bank_mkAddr _ _).trans ?_
    rw [State.resolve_direct, hea]
    cases s.params.family.transfers.xctBank with
    | ofPc => rfl
    | ofEa => exact bank_mkAddr _ _
  · rw [State.xctLink_eq, hir, State.resolve_direct]

/-- A chain of such links is left in progress, whatever the number of links a step follows. -/
theorem State.SelfXct.execChain_pending {s : State} {y : BitVec 13} (h : s.SelfXct y) (n : Nat) :
    ∃ m, bank m = bank s.pc ∧
      execChain n (.xct false y) s = .next { s with ma := m, xctChain := true } := by
  induction n generalizing s with
  | zero =>
    obtain ⟨m, hm, hlink⟩ := h.xctLink_eq
    exact ⟨m, hm, by rw [execChain_zero_xct, hlink]⟩
  | succ n ih =>
    obtain ⟨m, hm, hlink⟩ := h.xctLink_eq
    have hself : ({ s with ma := m } : State).SelfXct y := ⟨h.word, hm, h.cell⟩
    obtain ⟨m', hm', hrest⟩ := ih hself
    exact ⟨m', hm', by rw [execChain_succ_xct, hlink]; exact hself.word ▸ hrest⟩

/-- Quiet cycles change no register, no word of core and nothing the quiet of the clock and the arbiter rests on. -/
theorem State.quietCycles_drqQuiet (n : Nat) (s : State) : (State.quietCycles n s).drqQuiet = s.drqQuiet := rfl

/-- A step of an XCT of itself, with no interrupt request and the clock and the arbiter quiet, leaves it in progress. -/
theorem State.SelfXct.step_pending {s : State} {y : BitVec 13} (h : s.SelfXct y) (hirq : s.irq = false)
    (hquiet : s.drqQuiet = true) (hchain : s.xctChain = true) :
    ∃ t, step s = .next t ∧ t.SelfXct y ∧ t.irq = false ∧ t.drqQuiet = true ∧ t.xctChain = true ∧ t.pc = s.pc ∧
      t.ac = s.ac ∧ t.mem = s.mem ∧ t.ir = s.ir := by
  let a := State.quietCycles s.actingCycle { s with xctChain := false }
  have ha : a.SelfXct y := ⟨h.word, h.sameBank, h.cell⟩
  obtain ⟨m, hm, hexec⟩ := ha.execChain_pending chainLinks
  let b : State := { a with ma := m, xctChain := true }
  let c := State.quietCycles (s.cyclesDrawn - s.actingCycle) b
  have hrun : State.runLoaded { s with xctChain := false } = .next c.settle := by
    refine State.runLoaded_eq_next.2 ⟨a, b, c, State.advance_quiet hquiet, ?_, State.advance_quiet hquiet, rfl⟩
    rw [ha.word, exec_xct, hexec]
  refine ⟨c.settle, ?_, ⟨h.word, hm, h.cell⟩, hirq, hquiet, rfl, rfl, rfl, rfl, rfl⟩
  rw [step, hirq, hchain]
  exact hrun

/-- A run of n + 1 steps is a step and a run of n. -/
theorem core_run_succ {s u : State} (h : step s = .next u) (n : Nat) : core.run (n + 1) s = core.run n u := by
  simp only [Host.Core.run, show core.step s = .next u from h]

/-- Settles O23, by induction on the number of steps. -/
theorem selfXctNeverEnds : Obligations.SelfXctNeverEnds := by
  intro s y n hirq hquiet hchain hword hbank hcell
  have h : s.SelfXct y := ⟨hword, hbank, hcell⟩
  clear hword hbank hcell
  induction n generalizing s with
  | zero => exact ⟨s, rfl, hchain, rfl, rfl, rfl, rfl⟩
  | succ n ih =>
    obtain ⟨u, hstep, hself, huirq, huquiet, huchain, hpc, hac, hmem, hir⟩ := h.step_pending hirq hquiet hchain
    obtain ⟨t, hrun, htchain, htpc, htac, htmem, htir⟩ := ih u huirq huquiet huchain hself
    exact ⟨t, (core_run_succ hstep n).trans hrun, htchain, htpc.trans hpc, htac.trans hac, htmem.trans hmem,
      htir.trans hir⟩

end Sys2Proof.Machine
end

section
/-! The operate group: its rule, its refusals, and its named words (spec 43_operate.md R175 to R198). -/

namespace Sys2Proof.Machine

/-! The whole rule -/

/-- An operate word that is not refused has its effect (R176). -/
theorem oprGroup_next {b : OprBits} (h : oprRefusal b = none) (s : State) : oprGroup b s = .next (oprEffect b s) :=
  oprGroup_eq_next.2 ⟨h, rfl⟩

/-- An operate word with a refusal is refused for it (R89). -/
theorem oprGroup_refused {b : OprBits} {r : Refusal} (h : oprRefusal b = some r) (s : State) :
    oprGroup b s = .refused r := by
  rw [oprGroup, h]

/-- The rotate of an operate word on the ring `link : ac`, which is taken apart again (R110, R179). -/
theorem oprRotate_eq (b : OprBits) (link : Bool) (ac : Word) :
    let ring := withLink link ac
    let k := if b.arot then 2 else 1
    let r := if b.ral then ring.rotateLeft k else if b.rar then ring.rotateRight k else ring
    oprRotate b link ac = (r.getLsbD 18, lowWord r) := by
  have top : ∀ x : BitVec 19, x.getLsbD 18 = x.msb := fun x => (BitVec.msb_eq_getLsbD_last x).symm
  simp only [top]
  unfold oprRotate
  cases b.ral with
  | true => cases b.arot <;> rfl
  | false =>
    cases b.rar with
    | true => cases b.arot <;> rfl
    | false => exact (congrArg Prod.swap (ringParts_of_eq (rfl : withLink link ac = _))).symm

/-- Settles O26: stage one, stage two, the sample and the test, one equation each. -/
theorem operateGroupRule : Obligations.OperateGroupRule := by
  intro b s h13 hrotates hoas a0 l0 a1 l1 a2 ring k r a l skip
  have hone : oprStage1 s.params.family.stageOrder b (s.link, s.ac) = (l1, a1) := by
    simp only [a1, l1]
    cases s.params.family.stageOrder <;> rfl
  have htwo : oprStage2 b s.dataSwitches l1 a1 = (r.getLsbD 18, r.extractLsb' 0 18) := oprRotate_eq b l1 a2
  have hsample : oprSample s.params.oprSkipSample (s.link, s.ac) (l1, a1) (r.getLsbD 18, r.extractLsb' 0 18) = (l, a) := by
    simp only [a, l]
    cases s.params.oprSkipSample <;> rfl
  have hskip : oprSkip b (l, a) = skip := by
    simp only [oprSkip, skipTest, zeroOf, signOf, BitVec.msb_eq_getLsbD_last]
    rfl
  refine (oprGroup_next (oprRefusal_eq_none.2 ⟨h13, hrotates, hoas⟩) s).trans (congrArg Host.Outcome.next ?_)
  simp only [oprEffect, hone, htwo, hsample, hskip]
  cases b.hlt <;> rfl

/-- Settles O27: the three refusals are looked for in this order. -/
theorem operateWordsRefused : Obligations.OperateWordsRefused := by
  refine fun b s => ⟨fun h13 => oprGroup_refused ?_ s, fun h13 hral hrar => oprGroup_refused ?_ s,
    fun h13 hrotates hoas hrotate => oprGroup_refused ?_ s⟩
  · simp [oprRefusal, h13]
  · simp [oprRefusal, h13, hral, hrar]
  · simp_all [oprRefusal]

/-! Words that only test -/

/-- The word changes neither AC nor the Link. -/
def oprTestsOnly (b : OprBits) : Bool := !(b.cla || b.cll || b.cma || b.cml || b.oas || b.ral || b.rar)

theorem oprTestsOnly_iff {b : OprBits} : oprTestsOnly b = true ↔ b.cla = false ∧ b.cll = false ∧ b.cma = false ∧
    b.cml = false ∧ b.oas = false ∧ b.ral = false ∧ b.rar = false := by
  simp [oprTestsOnly, and_assoc]

/-- A word that only tests has one value of (Link, AC) at all the sample points, and changes PC and RUN only. -/
theorem oprEffect_testsOnly {b : OprBits} (h : oprTestsOnly b = true) (s : State) : oprEffect b s =
    { s with
      pc := if oprSkip b (s.link, s.ac) then inc s.params s.pc else s.pc
      run := if b.hlt then .halted .hlt else s.run } := by
  obtain ⟨hcla, hcll, hcma, hcml, hoas, hral, hrar⟩ := oprTestsOnly_iff.1 h
  have hone : oprStage1 s.params.family.stageOrder b (s.link, s.ac) = (s.link, s.ac) := by
    cases s.params.family.stageOrder <;> simp [oprStage1, oprClear, oprComplement, hcla, hcll, hcma, hcml]
  have htwo : oprStage2 b s.dataSwitches s.link s.ac = (s.link, s.ac) := by
    simp [oprStage2, oprRotate, hoas, hral, hrar]
  have hsample : oprSample s.params.oprSkipSample (s.link, s.ac) (s.link, s.ac) (s.link, s.ac) = (s.link, s.ac) := by
    cases s.params.oprSkipSample <;> rfl
  simp only [oprEffect, hone, htwo, hsample]
  cases b.hlt <;> rfl

/-- Settles O28: the sample point is no part of `oprEffect_testsOnly`. -/
theorem skipSampleIsUnobservableAlone : Obligations.SkipSampleIsUnobservableAlone := by
  intro b s p q hcla hcll hcma hcml hoas hral hrar h13
  have htests : oprTestsOnly b = true := oprTestsOnly_iff.2 ⟨hcla, hcll, hcma, hcml, hoas, hral, hrar⟩
  have hnone : oprRefusal b = none := oprRefusal_eq_none.2 ⟨h13, by simp [hral], by simp [hoas]⟩
  refine ⟨_, _, oprGroup_next hnone _, oprGroup_next hnone _, ?_⟩
  rw [oprEffect_testsOnly htests, oprEffect_testsOnly htests]
  exact ⟨rfl, rfl, rfl⟩

/-- A named skip, with the condition it skips on (R193 to R196). -/
theorem oprGroup_skip {b : OprBits} {s : State} {c : Bool} (hnone : oprRefusal b = none) (htests : oprTestsOnly b = true)
    (hhlt : b.hlt = false) (hc : oprSkip b (s.link, s.ac) = c) :
    oprGroup b s = .next { s with pc := if c then inc s.params s.pc else s.pc } := by
  rw [oprGroup_next hnone, oprEffect_testsOnly htests, hc, hhlt]
  rfl

/-- Settles O30: each is a word that only tests, and its condition is the formula of R180 at its bits. -/
theorem namedSkips : Obligations.NamedSkips := by
  intro s on
  have test : ∀ b : OprBits, oprSkip b (s.link, s.ac) =
      (((decide (s.ac = 0) && b.sza) || (s.ac.getLsbD 17 && b.sma) || (s.link && b.snl)) ^^ b.pol) := fun b => by
    simp only [oprSkip, skipTest, zeroOf, signOf, BitVec.msb_eq_getLsbD_last]
  exact ⟨oprGroup_skip (b := { sma := true }) rfl rfl rfl ((test _).trans (by simp)),
    oprGroup_skip (b := { sza := true }) rfl rfl rfl ((test _).trans (by simp)),
    oprGroup_skip (b := { snl := true }) rfl rfl rfl ((test _).trans (by simp)),
    oprGroup_skip (b := { pol := true }) rfl rfl rfl ((test _).trans (by simp)),
    oprGroup_skip (b := { pol := true, sma := true }) rfl rfl rfl ((test _).trans (by simp)),
    oprGroup_skip (b := { pol := true, sza := true }) rfl rfl rfl ((test _).trans (by simp)),
    oprGroup_skip (b := { pol := true, snl := true }) rfl rfl rfl ((test _).trans (by simp))⟩

/-! Words that never skip -/

/-- The word selects no skip and does not reverse the test. -/
def oprNeverSkips (b : OprBits) : Bool := !(b.sza || b.sma || b.snl || b.pol)

/-- A word that never skips takes (Link, AC) through its two stages, and halts if its bit says so. -/
theorem oprGroup_stages {b : OprBits} {s : State} (one two : Bool × Word) (hnone : oprRefusal b = none)
    (hnever : oprNeverSkips b = true) (hone : oprStage1 s.params.family.stageOrder b (s.link, s.ac) = one)
    (htwo : oprStage2 b s.dataSwitches one.1 one.2 = two) : oprGroup b s = .next { s with
      link := two.1
      ac := two.2
      run := if b.hlt then .halted .hlt else s.run } := by
  have hskip : ∀ v, oprSkip b v = false := by
    simp only [oprNeverSkips, Bool.not_eq_true', Bool.or_eq_false_iff] at hnever
    obtain ⟨⟨⟨hsza, hsma⟩, hsnl⟩, hpol⟩ := hnever
    simp [oprSkip, skipTest, hsza, hsma, hsnl, hpol]
  rw [oprGroup_next hnone]
  simp only [oprEffect, hone, htwo, hskip]
  cases b.hlt <;> rfl

/-- A stage one that comes out alike in both orders (G10). -/
theorem oprStage1_of_both {b : OprBits} {v w : Bool × Word} (h : oprComplement b (oprClear b v) = w)
    (h' : oprClear b (oprComplement b v) = w) (o : StageOrder) : oprStage1 o b v = w := by
  cases o with
  | clearsFirst => exact h
  | complementsFirst => exact h'

/-- Settles O29: the two stages of each word, the rotates by the table of R110. -/
theorem namedOperateWords : Obligations.NamedOperateWords := by
  intro s l bit
  obtain ⟨hral, hrar, hrtl, hrtr⟩ := shifterTable s.ac s.link
  obtain ⟨hglk, -, -, -⟩ := shifterTable 0 s.link
  refine ⟨?_, ?_, ?_, ?_, ?_, ?_, ?_, ?_, ?_, ?_, ?_, ?_, ?_, ?_, ?_, ?_⟩
  · exact oprGroup_stages (b := { ral := true }) (s.link, s.ac) _ rfl rfl (oprStage1_of_both rfl rfl _)
      (congrArg Prod.swap hral)
  · exact oprGroup_stages (b := { rar := true }) (s.link, s.ac) _ rfl rfl (oprStage1_of_both rfl rfl _)
      (congrArg Prod.swap hrar)
  · exact oprGroup_stages (b := { arot := true, ral := true }) (s.link, s.ac) _ rfl rfl (oprStage1_of_both rfl rfl _)
      (congrArg Prod.swap hrtl)
  · exact oprGroup_stages (b := { arot := true, rar := true }) (s.link, s.ac) _ rfl rfl (oprStage1_of_both rfl rfl _)
      (congrArg Prod.swap hrtr)
  · exact oprGroup_stages (b := {}) (s.link, s.ac) _ rfl rfl (oprStage1_of_both rfl rfl _) rfl
  · exact oprGroup_stages (b := { cla := true }) (s.link, 0) _ rfl rfl (oprStage1_of_both rfl rfl _) rfl
  · exact oprGroup_stages (b := { cma := true }) (s.link, ~~~s.ac) _ rfl rfl (oprStage1_of_both rfl rfl _) rfl
  · exact oprGroup_stages (b := { cll := true }) (false, s.ac) _ rfl rfl (oprStage1_of_both rfl rfl _) rfl
  · exact oprGroup_stages (b := { cml := true }) (!s.link, s.ac) _ rfl rfl (oprStage1_of_both rfl rfl _) rfl
  · refine oprGroup_stages (b := { cll := true, cml := true })
      (decide (s.params.family.stageOrder = .clearsFirst), s.ac) _ rfl rfl ?_ rfl
    cases s.params.family.stageOrder <;> rfl
  · refine oprGroup_stages (b := { cla := true, cma := true })
      (s.link, if s.params.family.stageOrder = .clearsFirst then BitVec.allOnes 18 else 0) _ rfl rfl ?_ rfl
    cases s.params.family.stageOrder with
    | clearsFirst => exact congrArg (Prod.mk s.link) BitVec.not_zero
    | complementsFirst => rfl
  · exact oprGroup_stages (b := { cla := true, cll := true }) (false, 0) _ rfl rfl (oprStage1_of_both rfl rfl _) rfl
  · exact oprGroup_stages (b := { oas := true }) (s.link, s.ac) _ rfl rfl (oprStage1_of_both rfl rfl _) rfl
  · exact oprGroup_stages (b := { cla := true, oas := true }) (s.link, 0) (s.link, s.dataSwitches) rfl rfl
      (oprStage1_of_both rfl rfl _) (by simp [oprStage2, oprRotate])
  · exact oprGroup_stages (b := { cla := true, ral := true }) (s.link, 0) (false, l) rfl rfl (oprStage1_of_both rfl rfl _)
      ((congrArg Prod.swap hglk).trans (by simp [l]))
  · exact oprGroup_stages (b := { hlt := true }) (s.link, s.ac) _ rfl rfl (oprStage1_of_both rfl rfl _) rfl

end Sys2Proof.Machine
end

section
/-! IOT: what each device does, AC and the skip, and the named words (spec 44_iot_coprocessor_devices.md R200 to R220). -/

namespace Sys2Proof.Machine

/-! AC and PC after an IOT -/

/-- The state in which the coprocessor carries out an IOT. -/
def iotBegun (b : IotBits) (s : State) : State :=
  { s with ac := if b.cla then 0 else s.ac, iocp := { busy := true, reqPrev := true } }

theorem iotEffect_known_eq {b : IotBits} {d : Device} (s : State) (h : deviceOf b.dev = some d) :
    iotEffect b s = ((iotBegun b s).pulse d b.sub b.pulse).takeAck := by
  rw [iotEffect, iot_begun, State.iocpPerform_known h]
  rfl

/-- AC after an IOT with the OR of R207: the optional clear, and the reader's word if it is delivered. -/
theorem iotEffect_ac {b : IotBits} {d : Device} {s : State} (h : deviceOf b.dev = some d)
    (hor : s.params.family.writeBack = .or) : (iotEffect b s).ac =
      (if b.cla then 0 else s.ac) ||| (if b.pulse.getLsbD 1 && decide (d = .reader) then s.rdr.buf else 0) := by
  obtain ⟨hvalid, hword⟩ := (iotBegun b s).pulse_wb d b.sub b.pulse
  rw [iotEffect_known_eq s h, State.takeAck_ac]
  rw [hvalid] at hword ⊢
  split
  · rename_i hdelivers
    rw [hword hdelivers, State.pulse_eq]
    exact congrArg (combineWriteBack · _ _) hor
  · rw [State.pulse_eq]
    exact BitVec.or_zero.symm

/-- The skip signal of the acknowledge, as the coprocessor raises it for these fields. -/
def iotSkips (b : IotBits) (d : Device) (s : State) : Bool := ((iotBegun b s).pulse d b.sub b.pulse).iocp.skip

theorem iotEffect_pc {b : IotBits} {d : Device} {s : State} (h : deviceOf b.dev = some d) :
    (iotEffect b s).pc = if iotSkips b d s then inc s.params s.pc else s.pc := by
  rw [iotEffect_known_eq s h, State.takeAck_pc, iotSkips, State.pulse_eq]
  rfl

/-- In the order of R203, the skip tests the flag of before (R204). -/
theorem iotSkips_testFirst {b : IotBits} {d : Device} {s : State} (h : s.params.family.pulseOrder = .testClearStart) :
    iotSkips b d s = (b.pulse.getLsbD 0 && s.ready d) := by
  rw [iotSkips, (iotBegun b s).pulse_skip d b.sub b.pulse h]
  cases d <;> rfl

/-- A pulse whose bit is clear does nothing. -/
theorem State.pulseIf_of_clear {s : State} {d : Device} {sub : BitVec 2} {pulse : BitVec 3} {p : Pulse}
    (h : pulse.getLsbD p.bit = false) : s.pulseIf d sub pulse p = s := by
  rw [State.pulseIf, h]

/-- A word with the test alone skips on the flag, in every order of the pulses. -/
theorem iotSkips_testAlone {b : IotBits} {d : Device} {s : State} (h : b.pulse = 1) : iotSkips b d s = s.ready d := by
  have hclear : ∀ u : State, u.pulseIf d b.sub 1 .clear = u := fun u => State.pulseIf_of_clear rfl
  have hstart : ∀ u : State, u.pulseIf d b.sub 1 .start = u := fun u => State.pulseIf_of_clear rfl
  rw [iotSkips, h, State.pulse]
  cases (iotBegun b s).params.family.pulseOrder <;> simp only [PulseOrder.list, List.foldl, hclear, hstart] <;>
    cases d <;> rfl

/-- A word without the test does not skip, in any order of the pulses. -/
theorem iotSkips_noTest {b : IotBits} {d : Device} {s : State} (h : b.pulse.getLsbD 0 = false) :
    iotSkips b d s = false := by
  have htest : ∀ u : State, u.pulseIf d b.sub b.pulse .test = u := fun u => State.pulseIf_of_clear h
  have hclear : ∀ u : State, (u.pulseIf d b.sub b.pulse .clear).iocp.skip = u.iocp.skip := fun u => by
    rw [State.pulseIf_iocp_clear]
    split <;> rfl
  rw [iotSkips, State.pulse]
  cases (iotBegun b s).params.family.pulseOrder <;>
    simp only [PulseOrder.list, List.foldl, htest, hclear, State.pulseIf_iocp_start]

/-! The devices, one by one -/

/-- An IOT to the clock changes no other device and emits nothing (R205, R206, R235). -/
theorem iotEffect_clock {b : IotBits} (s : State) (h : deviceOf b.dev = some .clock) : iotEffect b s = { s with
    ac := (iotEffect b s).ac
    pc := (iotEffect b s).pc
    iocp := {}
    rtc := { (if b.pulse.getLsbD 2 then s.rtc.start (b.sub.getLsbD s.params.family.modeBit) else s.rtc) with
      flag := s.rtc.flag && !b.pulse.getLsbD 1 } } := by
  obtain ⟨hrdr, htty, hrtc, hsink, hdiags⟩ := iotEffect_known s h
  rw [iotEffect_eq, hrdr, htty, hrtc, hsink, hdiags]
  simp

/-- An IOT to the reader changes no other device and emits nothing (R205, R206, R224). -/
theorem iotEffect_reader {b : IotBits} (s : State) (h : deviceOf b.dev = some .reader) : iotEffect b s = { s with
    ac := (iotEffect b s).ac
    pc := (iotEffect b s).pc
    iocp := {}
    rdr := { (if b.pulse.getLsbD 2 then s.rdr.start (b.sub.getLsbD s.params.family.modeBit) else s.rdr) with
      flag := s.rdr.flag && !b.pulse.getLsbD 1 } } := by
  obtain ⟨hrdr, htty, hrtc, hsink, hdiags⟩ := iotEffect_known s h
  rw [iotEffect_eq, hrdr, htty, hrtc, hsink, hdiags]
  simp

/-- An IOT to the teleprinter changes no other device, and emits the byte that it prints (R205, R206, R231). -/
theorem iotEffect_teleprinter {b : IotBits} (s : State) (h : deviceOf b.dev = some .teleprinter) :
    let byte := (if b.cla then 0 else s.ac : Word).extractLsb' 0 8
    iotEffect b s = { s with
      ac := (iotEffect b s).ac
      pc := (iotEffect b s).pc
      iocp := {}
      tty := if b.pulse.getLsbD 2 then s.tty.print byte else { s.tty with flag := s.tty.flag && !b.pulse.getLsbD 1 }
      sink := if b.pulse.getLsbD 2 then s.sink ++ [byte] else s.sink } := by
  obtain ⟨hrdr, htty, hrtc, hsink, hdiags⟩ := iotEffect_known s h
  intro byte
  rw [iotEffect_eq, hrdr, htty, hrtc, hsink, hdiags]
  simp [byte]

/-- The flag of the addressed device after an IOT: cleared by pulse bit 1, and kept without pulse bits 1 and 2 (R205). -/
theorem iotEffect_ready {b : IotBits} {d : Device} (s : State) (h : deviceOf b.dev = some d) :
    (b.pulse.getLsbD 1 = true → (iotEffect b s).ready d = false) ∧
    (b.pulse.getLsbD 1 = false → b.pulse.getLsbD 2 = false → (iotEffect b s).ready d = s.ready d) := by
  cases d with
  | clock =>
    rw [iotEffect_clock s h]
    refine ⟨fun h1 => ?_, fun h1 _ => ?_⟩ <;> simp only [State.ready, h1]
    · exact Bool.and_false _
    · exact Bool.and_true _
  | reader =>
    rw [iotEffect_reader s h]
    refine ⟨fun h1 => ?_, fun h1 _ => ?_⟩ <;> simp only [State.ready, h1]
    · exact Bool.and_false _
    · exact Bool.and_true _
  | teleprinter =>
    rw [iotEffect_teleprinter s h]
    refine ⟨fun h1 => ?_, fun h1 h2 => ?_⟩ <;> simp only [State.ready, h1]
    · split
      · rfl
      · exact Bool.and_false _
    · rw [h2]
      exact Bool.and_true _

/-- Settles O31: PC, the flag and AC after an IOT to a device. -/
theorem iotPulsesTestClearDeliver : Obligations.IotPulsesTestClearDeliver := by
  intro s ign b d hd horder hor
  obtain ⟨hclear, hkeep⟩ := iotEffect_ready s hd
  exact ⟨iotEffect b s, rfl, (iotEffect_pc hd).trans (by rw [iotSkips_testFirst horder]), hclear, hkeep,
    iotEffect_ac hd hor⟩

/-- A start arms the reader with its framing and that framing's delay, and keeps the rest (R221, R224). -/
theorem Reader.start_eq (r : Reader) (binary : Bool) : r.start binary =
    { r with mode := if binary then .binary else .alpha, delay := if binary then 30 else 10 } := by
  cases binary <;> rfl

/-- Settles O32, by what an IOT does to each of the three devices. -/
theorem iotStartsOperations : Obligations.IotStartsOperations := by
  intro s ign sub cla pulse byte clears mode
  have hreader := iotEffect_reader (b := ⟨1, sub, cla, pulse⟩) s rfl
  have hclock := iotEffect_clock (b := ⟨0, sub, cla, pulse⟩) s rfl
  have htele := iotEffect_teleprinter (b := ⟨4, sub, cla, pulse⟩) s rfl
  refine ⟨⟨iotEffect _ s, rfl, ?_⟩, ⟨iotEffect _ s, rfl, ?_⟩, ⟨iotEffect _ s, rfl, ?_⟩⟩
  · rw [hreader, Reader.start_eq]
    refine ⟨rfl, rfl, rfl, ?_⟩
    cases pulse.getLsbD 2 <;> rfl
  · rw [hclock]
    refine ⟨rfl, rfl, rfl, ?_⟩
    cases pulse.getLsbD 2 <;> rfl
  · rw [htele]
    exact ⟨rfl, rfl, rfl, rfl⟩

/-- Settles O33: the optional clear and one event, and the coprocessor at rest again. -/
theorem unknownDeviceIsAcknowledged : Obligations.UnknownDeviceIsAcknowledged := by
  intro s ign b h0 h1 h4
  have hnone : deviceOf b.dev = none := deviceOf_eq_none.2 ⟨h0, h1, h4⟩
  refine (iotTransfer_eq b s).trans (congrArg Host.Outcome.next ?_)
  rw [iotEffect, iot_begun, State.iocpPerform_unknown hnone]
  rfl

/-- Settles O34, by the frame of `iotEffect`. -/
theorem iotFrame : Obligations.IotFrame := by
  intro s t ign b h
  obtain rfl : iotEffect b s = t := Host.Outcome.next.inj h
  refine ⟨iotEffect_eq b s, fun a => ?_⟩
  rw [iotEffect_eq]
  rfl

/-- A named IOT word: its device, whether it skips, and AC with the OR of R207 (R210 to R220). -/
theorem iotTransfer_named {b : IotBits} {d : Device} {s : State} {c : Bool} (h : deviceOf b.dev = some d)
    (hor : s.params.family.writeBack = .or) (hc : iotSkips b d s = c) : iotTransfer b s = .next { iotEffect b s with
      ac := (if b.cla then 0 else s.ac) ||| (if b.pulse.getLsbD 1 && decide (d = .reader) then s.rdr.buf else 0)
      pc := if c then inc s.params s.pc else s.pc } := by
  rw [← iotEffect_ac h hor, ← hc, ← iotEffect_pc h]
  rfl

/-- Settles O35: the device of each word, with AC and the skip of its pulses. -/
theorem namedIotWords : Obligations.NamedIotWords := by
  intro s ign hmode hor u on
  refine ⟨?_, ?_, ?_, ?_, ?_, ?_, ?_, ?_, ?_, ?_, ?_⟩
  · refine (iotTransfer_named (c := s.rtc.flag) rfl hor (iotSkips_testAlone rfl)).trans ?_
    rw [iotEffect_clock s rfl]
    simp [on, u]
  · refine (iotTransfer_named (c := s.rdr.flag) rfl hor (iotSkips_testAlone rfl)).trans ?_
    rw [iotEffect_reader s rfl]
    simp [on, u]
  · refine (iotTransfer_named (c := s.tty.flag) rfl hor (iotSkips_testAlone rfl)).trans ?_
    rw [iotEffect_teleprinter s rfl]
    simp [on, u]
  · refine (iotTransfer_named rfl hor (iotSkips_noTest rfl)).trans ?_
    rw [iotEffect_clock s rfl]
    simp [u, Clock.start]
  · refine (iotTransfer_named rfl hor (iotSkips_noTest rfl)).trans ?_
    rw [iotEffect_clock s rfl]
    simp [u, Clock.start, hmode]
  · refine (iotTransfer_named rfl hor (iotSkips_noTest rfl)).trans ?_
    rw [iotEffect_reader s rfl]
    simp [u]
  · refine (iotTransfer_named rfl hor (iotSkips_noTest rfl)).trans ?_
    rw [iotEffect_reader s rfl]
    simp [u]
  · refine (iotTransfer_named rfl hor (iotSkips_noTest rfl)).trans ?_
    rw [iotEffect_reader s rfl]
    simp [u, Reader.start_eq]
  · refine (iotTransfer_named rfl hor (iotSkips_noTest rfl)).trans ?_
    rw [iotEffect_reader s rfl]
    simp [u, Reader.start_eq, hmode]
  · refine (iotTransfer_named rfl hor (iotSkips_noTest rfl)).trans ?_
    rw [iotEffect_teleprinter s rfl]
    simp [u]
  · refine (iotTransfer_named rfl hor (iotSkips_noTest rfl)).trans ?_
    rw [iotEffect_teleprinter s rfl]
    simp [u, Teleprinter.print, printDelay]

end Sys2Proof.Machine
end

section
/-! The devices over many ticks, and the arbiter (spec 44_iot_coprocessor_devices.md R221 to R244). -/

namespace Sys2Proof.Machine

/-! The paper-tape reader -/

/-- A read in alpha mode, from an armed start with the flag cleared: 10 ticks later the byte at the pointer is in the buffer
(R223, R224). -/
theorem Reader.ticks_alpha (o : FrameOrder) (r : Reader) (h : r.ptr < r.tape.length) :
    (Reader.tick o)^[10] { r.start false with flag := false } =
      { r with
        buf := (r.byteAt r.ptr).zeroExtend 18, ptr := r.ptr + 1, flag := true, mode := .null, delay := 0 } :=
  Reader.ticks_refill o { r.start false with flag := false } (by simp [Reader.start]) (show 0 < 10 by decide) h

/-- Before its tenth tick, a reader armed in alpha mode with the flag cleared has the flag clear (R222). -/
theorem Reader.ticks_alpha_flag (o : FrameOrder) (r : Reader) {j : Nat} (h : j ≤ 9) :
    ((Reader.tick o)^[j] { r.start false with flag := false }).flag = false := by
  rw [Reader.ticks_wait o { r.start false with flag := false } (by simp [Reader.start]) (show j < 10 by omega)]

/-- Settles O36, by induction on the number of bytes read: the tape is kept and the pointer counts the reads. -/
theorem tapeReaderRoundTrip : Obligations.TapeReaderRoundTrip := by
  intro o r bytes begin armed read
  have one : ∀ u : Reader, u.ptr < u.tape.length → read u =
      { u with buf := (u.byteAt u.ptr).zeroExtend 18, ptr := u.ptr + 1, flag := true, mode := .null, delay := 0 } :=
    fun u hu => Reader.ticks_alpha o u hu
  have before : ∀ k ≤ bytes.length, (read^[k] begin).tape = bytes ∧ (read^[k] begin).ptr = k := by
    intro k hk
    induction k with
    | zero => exact ⟨rfl, rfl⟩
    | succ k ih =>
      obtain ⟨htape, hptr⟩ := ih (by omega)
      rw [Function.iterate_succ_apply', one _ (by rw [htape, hptr]; omega)]
      exact ⟨htape, by rw [hptr]⟩
  intro k hk
  obtain ⟨htape, hptr⟩ := before k (by omega)
  have hbyte : (read^[k] begin).byteAt (read^[k] begin).ptr = bytes[k] := by
    simp [Reader.byteAt, htape, hptr, hk]
  rw [Function.iterate_succ_apply', one _ (by rw [htape, hptr]; omega), hbyte]
  exact ⟨rfl, rfl, by rw [hptr], fun j hj => Reader.ticks_alpha_flag o _ hj⟩

/-- Settles O37: the countdown of 30 ends in a refill with the frame at the pointer. -/
theorem binaryFrameAfterThirtyTicks : Obligations.BinaryFrameAfterThirtyTicks := by
  intro o r h six word
  have hmode : (r.start true).mode ≠ .null := by simp [Reader.start]
  constructor
  · rw [Reader.ticks_wait o (r.start true) hmode (show 29 < 30 by decide)]
    rfl
  · refine (Reader.ticks_refill o (r.start true) hmode (show 0 < 30 by decide) h).trans ?_
    cases o <;> rfl

/-! The teleprinter and the clock -/

/-- A teleprinter that is counting down is ready, with its count over, after as many ticks (R232). -/
theorem Teleprinter.ticks_done (t : Teleprinter) {n : Nat} (h : t.delay = n + 1) :
    Teleprinter.tick^[n + 1] t = { t with flag := true, delay := 0 } := by
  have hlast : t.delay - n = 1 := by omega
  rw [Function.iterate_succ_apply', Teleprinter.ticks_wait t (by omega)]
  simp [Teleprinter.tick, hlast]

/-- Settles O38: the countdown starts at 300, with the flag clear. -/
theorem printTakesThreeHundredTicks : Obligations.PrintTakesThreeHundredTicks := by
  refine fun t b => ⟨fun j hj => ?_, Teleprinter.ticks_done (t.print b) (n := 299) rfl⟩
  rw [Teleprinter.ticks_wait (t.print b) (show j < 300 from hj)]
  rfl

/-- A tick below the threshold counts, and requests nothing (R234). -/
theorem Clock.tick_below {c : Clock} {T : Nat} (h : c.count < T) : c.tick T = { c with count := c.count + 1 } := by
  have hle : ¬ T < c.count + 1 := by omega
  simp [Clock.tick, nextCount, Clock.expires, hle]

/-- The tick at the threshold resets the counter, and requests if the clock is enabled (R234). -/
theorem Clock.tick_at {c : Clock} {T : Nat} (h : c.count = T) :
    c.tick T = { c with count := 0, drq := c.drq || c.enable } := by
  simp [Clock.tick, nextCount, Clock.expires, h]

/-- Settles O39, by induction on the ticks up to the threshold. -/
theorem clockPeriodAndRequest : Obligations.ClockPeriodAndRequest := by
  intro c T h0
  have count : ∀ j ≤ T, (fun c : Clock => c.tick T)^[j] c = { c with count := j } := by
    intro j hj
    induction j with
    | zero =>
      show c = { c with count := 0 }
      rw [← h0]
    | succ j ih =>
      rw [Function.iterate_succ_apply', ih (by omega)]
      exact Clock.tick_below (show j < T by omega)
  refine ⟨count, ?_⟩
  rw [Function.iterate_succ_apply', count T le_rfl]
  exact Clock.tick_at rfl

/-! The arbiter -/

/-- The lowest requesting channel is the one below which no channel requests (R240). -/
theorem Drq.lowest_eq_some {d : Drq} {c : Fin 8} (hc : d.req.getLsbD c = true)
    (hlow : ∀ j < c, d.req.getLsbD j = false) : d.lowest = some c := by
  refine List.find?_eq_some_iff_getElem.2 ⟨hc, c.val, by simp, by simp, fun j hj => ?_⟩
  simpa using hlow ⟨j, hj.trans c.isLt⟩ hj

/-- A channel's line is that channel's bit alone. -/
theorem getLsbD_channelLine (c j : Fin 8) : (channelLine c).getLsbD j = decide (j = c) := by
  rw [channelLine, BitVec.getLsbD_twoPow]
  simp [Fin.ext_iff, eq_comm]

/-- Settles O41: an outstanding grant is withdrawn, no request leaves the arbiter as it is, and otherwise the lowest
requesting channel is granted. -/
theorem arbiterGrantsLowestChannel : Obligations.ArbiterGrantsLowestChannel := by
  refine fun d => ⟨Drq.evaluate_outstanding, fun hout hreq => Drq.evaluate_quiet hreq hout, fun hout c hc hlow => ?_⟩
  rw [Drq.evaluate_lowest hout (Drq.lowest_eq_some hc hlow)]
  exact ⟨rfl, rfl, getLsbD_channelLine c⟩

/-- Settles O42: the request is granted in the same cycle, so the grant lines are not all clear. -/
theorem drqGrantIsRefused : Obligations.DrqGrantIsRefused := by
  intro s henable hcount hgrant hout
  have hexpires : s.rtc.expires s.params.rtcThreshold = true := decide_eq_true hcount
  have hdrq : s.tickDevices.drq = (s.drq.request s.params.rtcDrqChannel).evaluate := by
    simp [State.tickDevices, hexpires, henable]
  have hissued : s.tickDevices.drq.grant ≠ 0 := hdrq ▸ Drq.evaluate_request hout s.params.rtcDrqChannel
  simpa [State.cycle, hgrant] using hissued

end Sys2Proof.Machine
end

section
/-! One step of the machine, by the kind of the step, and the front panel (spec 40_engine_bus_alu.md R126 to R131;
60_exceptions.md R255 to R271). -/

namespace Sys2Proof.Machine

/-! Which step it is -/

theorem step_chain {s : State} (hirq : s.irq = false) (hchain : s.xctChain = true) : step s = s.resumeChain := by
  simp [step, hirq, hchain]

theorem step_await {s : State} (hirq : s.irq = false) (hchain : s.xctChain = false) (hawait : s.awaitNeutral = true) :
    step s = s.awaitCycle := by
  simp [step, hirq, hchain, hawait]

theorem step_running {s : State} (hirq : s.irq = false) (hchain : s.xctChain = false) (hawait : s.awaitNeutral = false)
    (hrun : s.run = .running) : step s = s.runningStep := by
  simp [step, hirq, hchain, hawait, hrun]

theorem step_halted {s : State} (hirq : s.irq = false) (hchain : s.xctChain = false) (hawait : s.awaitNeutral = false)
    (hrun : s.run ≠ .running) : step s = s.haltedStep := by
  simp [step, hirq, hchain, hawait, hrun]

/-- Settles O6. -/
theorem stepResumesXctChain : Obligations.StepResumesXctChain := fun _ => step_chain

/-- Settles O7: with ION and the clock's flag the request is there, and it is looked at first. -/
theorem interruptRequestIsRefused : Obligations.InterruptRequestIsRefused := by
  intro s hion hflag
  simp [step, State.irq, hion, hflag]

/-! The instruction step -/

/-- Settles O5: the fetch written out; Sign is the top bit of OB. -/
theorem fetchLoadsRegisters : Obligations.FetchLoadsRegisters := by
  intro s w
  rw [← BitVec.msb_eq_getLsbD_last w]
  rfl

/-- Two continuations that agree on the answers of o agree after it. -/
theorem andThen_congr {o : Result} {f g : State → Result} (h : ∀ t, o = .next t → f t = g t) :
    andThen o f = andThen o g := by
  cases o with
  | next t => exact h t rfl
  | fault r => rfl
  | refused r => rfl

/-- Settles O4: the cycles change neither the run's layout nor IR, which holds the word fetched. -/
theorem stepRunsFetchedInstruction : Obligations.StepRunsFetchedInstruction := by
  intro s hirq hchain hawait hrun hpanel
  refine ⟨Nat.le_add_left 1 _, Nat.mod_lt _ (Nat.succ_pos _), ?_⟩
  rw [step_running hirq hchain hawait hrun, State.runningStep, if_neg hpanel]
  refine andThen_congr fun t ht => ?_
  rw [State.advance_eq ht]
  rfl

/-! The front panel -/

/-- Settles O43: one cycle in the front-panel steps, after which the wait ends if the code is neutral. -/
theorem haltedMachineOnlyTicksDevices : Obligations.HaltedMachineOnlyTicksDevices := by
  intro s hirq hchain hreq hgrant hout hclock hidle
  have hquiet : (s.rtc.expires s.params.rtcThreshold && s.rtc.enable) = false := by
    cases henable : s.rtc.enable with
    | false => exact Bool.and_false _
    | true => simpa [Clock.expires] using hclock henable
  have hcycle := State.idleCycle_next hreq hgrant hout hquiet
  cases hawait : s.awaitNeutral with
  | true =>
    have hstep := (step_await hirq hchain hawait).trans (State.awaitCycle_eq_next.2 ⟨_, hcycle, rfl⟩)
    refine ⟨_, hstep, ?_⟩
    by_cases hneutral : s.panelAction = .neutral
    · rw [if_pos (show s.neutralCode = true from decide_eq_true hneutral)]
      exact ⟨rfl, rfl, rfl, by simp [hneutral], rfl⟩
    · rw [if_neg (show ¬ s.neutralCode = true by simp [State.neutralCode, hneutral])]
      exact ⟨rfl, rfl, rfl, by simp [hneutral, hawait], rfl⟩
  | false =>
    obtain ⟨hrun, haction⟩ := hidle.resolve_left (by simp [hawait])
    have hstep : step s = s.idleCycle := by
      rw [step_halted hirq hchain hawait hrun, State.haltedStep]
      rcases haction with h | h <;> rw [h]
    exact ⟨_, hstep.trans hcycle, rfl, rfl, rfl, by simp [hawait], rfl⟩

/-- With the clock and the arbiter quiet, an action takes effect after its cycles, and the engine waits for neutral (R265). -/
theorem State.panelEffect_quiet {s : State} (h : s.drqQuiet = true) (effect : State → State) :
    s.panelEffect effect =
      .next { (effect (s.quietCycles s.cyclesDrawn)).settlePanel with awaitNeutral := true } :=
  State.panelEffect_eq_next.2 ⟨_, State.advance_quiet h, rfl⟩

/-- Settles O44: each action's effect, one by one. -/
theorem panelActionsOnHaltedMachine : Obligations.PanelActionsOnHaltedMachine := by
  intro s hirq hchain hawait hrun hquiet
  have hstep := step_halted hirq hchain hawait hrun
  have heffect := State.panelEffect_quiet hquiet
  rw [hstep, State.haltedStep]
  refine ⟨fun h => ?_, fun h => ?_, fun h => ?_, fun h => ?_, fun h => ?_, fun h => ?_⟩ <;> simp only [h]
  · exact ⟨_, heffect _, rfl, rfl, rfl, rfl⟩
  · exact ⟨_, heffect _, rfl, rfl, rfl, rfl⟩
  · exact ⟨_, heffect _, rfl, rfl, rfl, rfl, rfl⟩
  · exact ⟨_, heffect _, rfl, rfl, rfl, rfl, rfl⟩
  · exact ⟨_, heffect _, rfl, rfl, rfl, fun a => Memory.read_write _ _ _ a⟩
  · exact ⟨_, heffect _, rfl, rfl, rfl, fun a => Memory.read_write _ _ _ a⟩

/-- Settles O45: halt-step is looked for before the fetch. -/
theorem haltStepHaltsBeforeFetch : Obligations.HaltStepHaltsBeforeFetch := by
  intro s hirq hchain hawait hrun hquiet hpanel
  have hstep : step s = s.panelEffect State.haltStep := by
    rw [step_running hirq hchain hawait hrun, State.runningStep, if_pos hpanel]
  exact ⟨_, hstep.trans (State.panelEffect_quiet hquiet _), rfl, rfl, rfl, rfl, rfl, rfl⟩

/-- A loaded instruction does not set a halted machine running (R257). -/
theorem State.runLoaded_halted {s t : State} (h : s.runLoaded = .next t) (hs : s.run ≠ .running) : t.run ≠ .running := by
  obtain ⟨a, b, c, ha, hb, hc, rfl⟩ := State.runLoaded_eq_next.1 h
  have hrun : a.run ≠ .running := by rw [State.advance_eq ha]; exact hs
  have hrun : b.run ≠ .running := (exec_keeps hb).halted hrun
  show c.run ≠ .running
  rw [State.advance_eq hc]
  exact hrun

/-- Settles O46: the single step halts what is still running, and execute loads IR without a fetch. -/
theorem singleStepReturnsToHalted : Obligations.SingleStepReturnsToHalted := by
  intro s t hchain hawait hrun h
  rw [step_halted (step_eq_next h).1 hchain hawait hrun, State.haltedStep] at h
  refine ⟨fun haction => ?_, fun haction => ?_⟩ <;> rw [haction] at h
  · obtain ⟨a, ha, rfl⟩ := State.panelRun_eq_next.1 h
    obtain ⟨u, hu, rfl⟩ := State.singleStep_eq_next.1 ha
    by_cases hr : u.run = .running
    · rw [if_pos hr]
      exact ⟨by simp, u, hu, rfl⟩
    · rw [if_neg hr]
      exact ⟨hr, u, hu, rfl⟩
  · obtain ⟨u, hu, rfl⟩ := State.panelRun_eq_next.1 h
    exact ⟨State.runLoaded_halted (s := s.loadIr s.dataSwitches) (t := u) hu hrun, u, hu, rfl⟩

end Sys2Proof.Machine
end

section
/-! The ALU's identities, and reset (spec 40_engine_bus_alu.md R113; 10_state.md R52; 70_reset_and_hazards.md R280 to
R282). -/

namespace Sys2Proof.Machine

/-! The ALU -/

/-- A rotate to the right undoes the rotate to the left by as many places. -/
theorem rotateRight_rotateLeft {w r : Nat} (x : BitVec w) (h : r < w) : (x.rotateLeft r).rotateRight r = x := by
  ext i hi
  simp only [BitVec.getElem_rotateRight, BitVec.getElem_rotateLeft, Nat.mod_eq_of_lt h]
  split_ifs
  · omega
  · congr 1; omega
  · congr 1; omega
  · omega

/-- A 19-bit value is the ring of its top bit and its low word (R9). -/
theorem withLink_parts (x : BitVec 19) : withLink x.msb (lowWord x) = x :=
  BitVec.eq_of_toNat_eq ((toNat_withLink _ _).trans (toNat_msb_lowWord x))

/-- Settles O51: the two rotates work on one ring, and the other operations are bitwise by their definition. -/
theorem aluIdentities : Obligations.AluIdentities := by
  have undo : ∀ (ob : Word) (link : Bool) (r : Nat), r < 19 →
      let ring := withLink link ob
      let back := (withLink (ring.rotateLeft r).msb (lowWord (ring.rotateLeft r))).rotateRight r
      (lowWord back, back.msb) = (ob, link) := by
    intro ob link r hr
    simp only [withLink_parts]
    exact ringParts_of_eq (rotateRight_rotateLeft _ hr)
  exact fun ob mb link => ⟨undo ob link 1 (by decide), undo ob link 2 (by decide),
    fun ones => ⟨rfl, rfl, rfl, rfl, rfl⟩⟩

/-! Reset -/

/-- Settles O53: each value is read off the power-on state. -/
theorem resetStateValues : Obligations.ResetStateValues :=
  ⟨rfl, fun _ => ⟨rfl, rfl, rfl, rfl, rfl, rfl, rfl, rfl, rfl, rfl, rfl, rfl, rfl, rfl, rfl, rfl, rfl, rfl⟩, rfl, rfl, rfl,
    rfl⟩

/-- At power-on the panel is neutral, so the first step is a fetch (R44, R282). -/
theorem PowerOn.step_resetEntry (p : PowerOn) : step p.state.resetEntry = p.state.resetEntry.fetch.runLoaded := by
  have hneutral : p.state.resetEntry.panelAction = .neutral := rfl
  rw [step_running rfl rfl rfl rfl, State.runningStep, hneutral, if_neg (by decide)]
  rfl

/-- Settles O52: the reset-entry word puts the ALU's CLEAR on the data bus and latches it in the registers that its enables
name. -/
theorem resetEntryClearsRegisters : Obligations.ResetEntryClearsRegisters := by
  refine ⟨fun _ => rfl, fun p => ⟨rfl, p.step_resetEntry⟩, fun p => ?_⟩
  intro t
  have hrest : t = { p.state.resetEntry with
      stepReg := t.stepReg, skip := t.skip, currentWord := t.currentWord, nextWord := t.nextWord } := rfl
  have hstep : t.stepReg = 0 := BitVec.zero_and
  exact hrest.trans (congrArg (fun v : Word => { p.state.resetEntry with
    stepReg := v, skip := t.skip, currentWord := t.currentWord, nextWord := t.nextWord }) hstep)

end Sys2Proof.Machine
end
